-- ==== Sys2Proof/Word.lean ====
section
/-! DEFINITION. The word types of SPC: every datum is an unsigned byte (00_scope.md R7), an operation
word and a response word have sixteen bits (30_encoding.md R80, R83), a packed timecode has twenty-four
(30_encoding.md R98). -/

namespace Sys2Proof

/-- A datum: "an unsigned byte of exactly eight bits" (R7). -/
abbrev Byte := BitVec 8

/-- The operation word `OPW` (R80). -/
abbrev OpWord := BitVec 16

/-- The response word `RSP` (R83). -/
abbrev RspWord := BitVec 16

/-- The 24-bit integer `V` of the packed timecode layout (R98). -/
abbrev Packed := BitVec 24

end Sys2Proof
end

