-- ==== Sys2Proof/Syntax.lean ====
section
/-! DEFINITION. The 24 operations of 30_encoding.md R86, one constructor a row of spec/opcode_table.json,
and the names the rules use: the registers of 10_state.md R22 and the six faults of 60_exceptions.md R231. -/

namespace Sys2Proof

/-- An operation, with `imm8` as its operand where its row has one (R80, R86). -/
inductive Instr where
  | nop
  | srst
  /-- `imm8` is the algorithm: 0x00 TWOS, 0x01 XOR. -/
  | setalg (imm8 : Byte)
  | setack (imm8 : Byte)
  | setnack (imm8 : Byte)
  | setbusy (imm8 : Byte)
  | setua2 (imm8 : Byte)
  | setbt (imm8 : Byte)
  | setcmd (imm8 : Byte)
  | setctrl (imm8 : Byte)
  | setdata (imm8 : Byte)
  | ibclr
  /-- `imm8` is the byte to append. -/
  | ibpush (imm8 : Byte)
  | ob2ib
  | cenc
  | cvfy
  | nenc
  | nvfy
  | clsfy
  | tcdec
  /-- `imm8` is the candidate number, 0x01 to 0x04. -/
  | tccand (imm8 : Byte)
  /-- `imm8` is the register number. -/
  | rdreg (imm8 : Byte)
  /-- `imm8` is the index into `OB`. -/
  | rdob (imm8 : Byte)
  /-- `imm8` is the index into `IB`. -/
  | rdib (imm8 : Byte)
  deriving DecidableEq, Repr

/-- The registers of R22 that have storage of their own. -/
inductive Reg where
  | profv | csalg | ackb | nackb | busyb
  | opndv | ua2 | bt | cmd | ctrl | data
  | vfyr | classr | tcstat | tch | tcm | tcs | tcf
  | flt
  deriving DecidableEq, Repr

/-- The 21 registers of R22: those with storage of their own, and the two buffer lengths, which are the
lengths of the buffers (R30, R31, R32). -/
inductive RegSel where
  | reg (r : Reg)
  | iblen
  | oblen
  deriving DecidableEq, Repr

/-- The six faults of R231, in the order of their codes. They end one operation, never the machine. -/
inductive FaultCode where
  | illegalOp
  | illegalOperand
  | notConfigured
  | lengthError
  | overflow
  | indexError
  deriving DecidableEq, Repr

end Sys2Proof
end

