-- ==== Sys2Proof/WellFormed.lean ====
section
/-! DEFINITION. Which operations have a legal operand: 30_encoding.md R88. An operation that is not well
formed has a row in the opcode map and is refused when it executes, with IllegalOperand. -/

namespace Sys2Proof

/-- "names no register": 0x05 to 0x07, 0x0E, 0x0F, 0x12 to 0x17, 0x20 to 0xFF (R22, the sentence after
the map; the map itself is `regOfNumber` of Machine/Operands.lean). -/
def unassignedNumber (n : Byte) : Bool :=
  (0x05 ≤ n && n ≤ 0x07) || n == 0x0E || n == 0x0F || (0x12 ≤ n && n ≤ 0x17) || 0x20 ≤ n

/-- The operand values a matched row admits (R88): every operand byte, but for three operations. -/
def Instr.wellFormed : Instr → Bool
  | .setalg imm8 => imm8 ≤ 0x01
  | .tccand imm8 => 0x01 ≤ imm8 && imm8 ≤ 0x04
  | .rdreg imm8 => !unassignedNumber imm8
  | .nop | .srst | .setack _ | .setnack _ | .setbusy _ | .setua2 _ | .setbt _ | .setcmd _ | .setctrl _ | .setdata _ => true
  | .ibclr | .ibpush _ | .ob2ib | .cenc | .cvfy | .nenc | .nvfy | .clsfy | .tcdec | .rdob _ | .rdib _ => true

/-- The instruction's operand is legal at decode (R88). -/
abbrev Instr.WellFormed (i : Instr) : Prop := i.wellFormed = true

end Sys2Proof
end

