-- ==== Sys2Proof/Decode.lean ====
section
/-! DEFINITION. The decoder of 30_encoding.md R89, total on the 65536 words, and after it the encoder,
written from the match column of R86; the opcode map itself as rows; and the table's numbering of bits. -/

namespace Sys2Proof

/-- `opc`, bits 15:8 (R80). -/
def opc (w : OpWord) : Byte := w.extractLsb' 8 8

/-- `imm8`, bits 7:0, "the byte itself" (R80). -/
def imm8Of (w : OpWord) : Byte := w.extractLsb' 0 8

/-- A no-operand row (mask 0xFFFF): `imm8` must be 0x00, else the word is reserved (R87 b). -/
def noOperand (i : Instr) (imm : Byte) : Except FaultCode Instr :=
  if imm = 0x00 then .ok i else .error .illegalOp

/-- The row that `opc` selects, with its operand: the procedure of R89. -/
def decodeParts (op imm : Byte) : Except FaultCode Instr :=
  match op with
  | 0x00#8 => noOperand .nop imm
  | 0x01#8 => noOperand .srst imm
  | 0x10#8 => .ok (.setalg imm)
  | 0x11#8 => .ok (.setack imm)
  | 0x12#8 => .ok (.setnack imm)
  | 0x13#8 => .ok (.setbusy imm)
  | 0x20#8 => .ok (.setua2 imm)
  | 0x21#8 => .ok (.setbt imm)
  | 0x22#8 => .ok (.setcmd imm)
  | 0x23#8 => .ok (.setctrl imm)
  | 0x24#8 => .ok (.setdata imm)
  | 0x30#8 => noOperand .ibclr imm
  | 0x31#8 => .ok (.ibpush imm)
  | 0x32#8 => noOperand .ob2ib imm
  | 0x40#8 => noOperand .cenc imm
  | 0x41#8 => noOperand .cvfy imm
  | 0x48#8 => noOperand .nenc imm
  | 0x49#8 => noOperand .nvfy imm
  | 0x50#8 => noOperand .clsfy imm
  | 0x60#8 => noOperand .tcdec imm
  | 0x61#8 => .ok (.tccand imm)
  | 0x70#8 => .ok (.rdreg imm)
  | 0x71#8 => .ok (.rdob imm)
  | 0x72#8 => .ok (.rdib imm)
  | _ => .error .illegalOp

/-- Decoding is total: every word selects one row of R86 or is reserved, with the fault IllegalOp
(R87, R89). An operand that its row refuses (R88) is refused by the operation (log 9). -/
def decode (w : OpWord) : Except FaultCode Instr := decodeParts (opc w) (imm8Of w)

/-- A word of a row with mask 0xFF00: its match value with `imm8` in bits 7:0. -/
def withOperand (matched : OpWord) (imm : Byte) : OpWord := matched ||| imm.setWidth 16

/-- The operation's word, from the match column of R86 and the layout of R80. -/
def encode : Instr → OpWord
  | .nop => 0x0000
  | .srst => 0x0100
  | .setalg imm => withOperand 0x1000 imm
  | .setack imm => withOperand 0x1100 imm
  | .setnack imm => withOperand 0x1200 imm
  | .setbusy imm => withOperand 0x1300 imm
  | .setua2 imm => withOperand 0x2000 imm
  | .setbt imm => withOperand 0x2100 imm
  | .setcmd imm => withOperand 0x2200 imm
  | .setctrl imm => withOperand 0x2300 imm
  | .setdata imm => withOperand 0x2400 imm
  | .ibclr => 0x3000
  | .ibpush imm => withOperand 0x3100 imm
  | .ob2ib => 0x3200
  | .cenc => 0x4000
  | .cvfy => 0x4100
  | .nenc => 0x4800
  | .nvfy => 0x4900
  | .clsfy => 0x5000
  | .tcdec => 0x6000
  | .tccand imm => withOperand 0x6100 imm
  | .rdreg imm => withOperand 0x7000 imm
  | .rdob imm => withOperand 0x7100 imm
  | .rdib imm => withOperand 0x7200 imm

/-- One row of the opcode map: its mnemonic, match and mask (R86). -/
structure OpRow where
  mnemonic : String
  matchWord : OpWord
  mask : OpWord
  deriving DecidableEq, Repr

/-- The opcode map of R86, rows 0x00 to 0x24. -/
def opcodeMapConfig : List OpRow :=
  [⟨"NOP", 0x0000, 0xFFFF⟩, ⟨"SRST", 0x0100, 0xFFFF⟩, ⟨"SETALG", 0x1000, 0xFF00⟩, ⟨"SETACK", 0x1100, 0xFF00⟩,
   ⟨"SETNACK", 0x1200, 0xFF00⟩, ⟨"SETBUSY", 0x1300, 0xFF00⟩, ⟨"SETUA2", 0x2000, 0xFF00⟩, ⟨"SETBT", 0x2100, 0xFF00⟩,
   ⟨"SETCMD", 0x2200, 0xFF00⟩, ⟨"SETCTRL", 0x2300, 0xFF00⟩, ⟨"SETDATA", 0x2400, 0xFF00⟩]

/-- The opcode map of R86, rows 0x30 to 0x72. -/
def opcodeMapData : List OpRow :=
  [⟨"IBCLR", 0x3000, 0xFFFF⟩, ⟨"IBPUSH", 0x3100, 0xFF00⟩, ⟨"OB2IB", 0x3200, 0xFFFF⟩, ⟨"CENC", 0x4000, 0xFFFF⟩,
   ⟨"CVFY", 0x4100, 0xFFFF⟩, ⟨"NENC", 0x4800, 0xFFFF⟩, ⟨"NVFY", 0x4900, 0xFFFF⟩, ⟨"CLSFY", 0x5000, 0xFFFF⟩,
   ⟨"TCDEC", 0x6000, 0xFFFF⟩, ⟨"TCCAND", 0x6100, 0xFF00⟩, ⟨"RDREG", 0x7000, 0xFF00⟩, ⟨"RDOB", 0x7100, 0xFF00⟩,
   ⟨"RDIB", 0x7200, 0xFF00⟩]

/-- The whole opcode map (R86). -/
def opcodeMap : List OpRow := opcodeMapConfig ++ opcodeMapData

/-- "`OPW & mask == match` selects the row" (R86). -/
def OpRow.selects (r : OpRow) (w : OpWord) : Bool := w &&& r.mask == r.matchWord

/-- The operation's mnemonic (R86, R103). -/
def Instr.mnemonic : Instr → String
  | .nop => "NOP" | .srst => "SRST" | .setalg _ => "SETALG" | .setack _ => "SETACK"
  | .setnack _ => "SETNACK" | .setbusy _ => "SETBUSY" | .setua2 _ => "SETUA2" | .setbt _ => "SETBT"
  | .setcmd _ => "SETCMD" | .setctrl _ => "SETCTRL" | .setdata _ => "SETDATA"
  | .ibclr => "IBCLR" | .ibpush _ => "IBPUSH" | .ob2ib => "OB2IB" | .cenc => "CENC" | .cvfy => "CVFY"
  | .nenc => "NENC" | .nvfy => "NVFY" | .clsfy => "CLSFY" | .tcdec => "TCDEC" | .tccand _ => "TCCAND"
  | .rdreg _ => "RDREG" | .rdob _ => "RDOB" | .rdib _ => "RDIB"

/-- The operation's operand `imm8`, where its row has one (R86). -/
def Instr.operand : Instr → Option Byte
  | .setalg imm | .setack imm | .setnack imm | .setbusy imm => some imm
  | .setua2 imm | .setbt imm | .setcmd imm | .setctrl imm | .setdata imm => some imm
  | .ibpush imm | .tccand imm | .rdreg imm | .rdob imm | .rdib imm => some imm
  | .nop | .srst | .ibclr | .ob2ib | .cenc | .cvfy | .nenc | .nvfy | .clsfy | .tcdec => none

/-- The three-way answer of decoding (spec/95_test_vectors.md section 4 and law 1): one executable
operation, IllegalOperand (R88), or IllegalOp (R87). -/
def decodeChecked (w : OpWord) : Except FaultCode Instr :=
  match decode w with
  | .ok i => if i.wellFormed then .ok i else .error .illegalOperand
  | .error c => .error c

/-- An operation word from its low `nbits` bits, numbered as spec/opcode_table.json numbers them. -/
def tableWord (nbits w : Nat) : OpWord := BitVec.ofNat 16 (w % 2 ^ nbits)

/-- The decoder on a table row's bits; every operation is one sixteen-bit word (R80, R90). -/
def decodeTableWord (nbits w : Nat) : Option Instr := (decode (tableWord nbits w)).toOption

end Sys2Proof
end

