-- ==== Sys2Proof/Config.lean ====
section
/-! DEFINITION. What is fixed when a block is built: the two implementation parameters of 00_scope.md R6,
and the one value the spec leaves free, the latency of an operation (30_encoding.md R82). -/

namespace Sys2Proof

/-- The two implementation parameters, "and no others" (R6). -/
structure Params where
  /-- `IBCAP`, the capacity in bytes of the input buffer. -/
  ibcap : Nat
  /-- `BCD_STRICT`, whether candidate 2 rejects a nibble above 9 (R206). -/
  bcdStrict : Bool
  deriving DecidableEq, Repr

/-- The legal values of R6: 9 <= IBCAP <= 255, and either value of `BCD_STRICT`. -/
abbrev Params.Legal (p : Params) : Prop := 9 ≤ p.ibcap ∧ p.ibcap ≤ 255

/-- The values R6 takes: `IBCAP` = 64, `BCD_STRICT` = false. -/
def Params.taken : Params where
  ibcap := 64
  bcdStrict := false

/-- FREE VALUE (log 6). How many cycles beyond the first the block takes between accepting its `n`-th
operation and answering it: "at least one, finite, and otherwise not specified" (R82). It has no body:
nothing can be proved of it. -/
opaque Config.extraCycles : Nat → Nat

end Sys2Proof
end

