-- ==== Sys2Proof/Machine/State.lean ====
section
/-! DEFINITION. The architectural state of SPC (10_state.md R20), what the host presents on the port, the
reasons a step can stop, and the state after reset (R40). -/

namespace Sys2Proof.Machine

/-- The valid content of a buffer, index 0 first: "a model may represent `IB` and `OB` as byte lists of
length `IBLEN` and `OBLEN`" (R32). An index at or past the length has no value (log 4). -/
abbrev Buffer := List Byte

/-- One input of the host: an operation word it presents (30_encoding.md R81), or one cycle of the reset
input `rst` (70_reset_and_hazards.md R260). -/
inductive HostInput where
  | op (w : OpWord)
  | rst
  deriving DecidableEq, Repr

/-- Why the machine stops for good. Nothing raises it and it has no constructor: "Nothing in the block is
stuck: every accepted operation responds, and a fault leaves the block ready" (93, end of part 1). The six
faults of the spec are next states (`raise` of Machine/Ops.lean). Safe: there is nothing to stop (log 5). -/
inductive Fault where
  deriving DecidableEq, Repr

/-- Why a step has no meaning. -/
inductive Refusal where
  /-- Raised by an arm of exec that has no meaning yet. No arm raises it: all 24 operations are modelled.
  Safe: it would stop where the block goes on. -/
  | notModelled (mnemonic : String)
  deriving DecidableEq, Repr

/-- The state of the block (R20, R22), and after it three fields of the model's own. -/
structure State where
  /-- `PROFV` (R23): bit 0 ALGV, 1 ACKV, 2 NACKV, 3 BUSYV. -/
  profv : Byte
  /-- `CSALG` (R24): bit 0 ALG. -/
  csalg : Byte
  /-- `ACKB` (R25). -/
  ackb : Byte
  /-- `NACKB` (R25). -/
  nackb : Byte
  /-- `BUSYB` (R25). -/
  busyb : Byte
  /-- `OPNDV` (R26): bit 0 UA2V, 1 BTV, 2 CMDV, 3 CTRLV, 4 DATAV. -/
  opndv : Byte
  /-- `UA2` (R27). -/
  ua2 : Byte
  /-- `BT` (R27). -/
  bt : Byte
  /-- `CMD` (R27). -/
  cmd : Byte
  /-- `CTRL` (R27). -/
  ctrl : Byte
  /-- `DATA` (R27). -/
  data : Byte
  /-- `IB[0..IBLEN)` (R30, R32). -/
  ib : Buffer
  /-- `OB[0..OBLEN)` (R31, R32). -/
  ob : Buffer
  /-- `VFYR` (R35): bit 7 V, bit 0 OK. -/
  vfyr : Byte
  /-- `CLASS` (R36): bit 7 V, bits 2:0 CODE. -/
  classr : Byte
  /-- `TCSTAT` (R37): bit 7 V, 3 SENT, 2:1 FMT, 0 FOUND. -/
  tcstat : Byte
  /-- `TCH` (R38). -/
  tch : Byte
  /-- `TCM` (R38). -/
  tcm : Byte
  /-- `TCS` (R38). -/
  tcs : Byte
  /-- `TCF` (R38). -/
  tcf : Byte
  /-- `FLT` (R39): bit c - 1 for fault code c. -/
  flt : Byte
  /-- The model's own: the parameters the block was built with (00_scope.md R6). No step changes them
  (R264). DESIGN CHOICE that State carries them (log 3), safe: they range over every value. -/
  params : Params
  /-- The model's own: what the host presents from now on, oldest first (R11). DESIGN CHOICE (log 1), safe. -/
  inputs : List HostInput
  /-- The model's own: the response word the last step presented, if it presented one (R82, R83).
  DESIGN CHOICE (log 2), safe. -/
  rsp : Option RspWord
  deriving DecidableEq, Repr

/-- The block right after reset (R40), with the parameter values R6 takes, nothing presented by the host
and no response. -/
def State.reset : State where
  profv := 0x00
  csalg := 0x00
  ackb := 0x00
  nackb := 0x00
  busyb := 0x00
  opndv := 0x00
  ua2 := 0x00
  bt := 0x00
  cmd := 0x00
  ctrl := 0x00
  data := 0x00
  ib := []
  ob := []
  vfyr := 0x00
  classr := 0x00
  tcstat := 0x00
  tch := 0x00
  tcm := 0x00
  tcs := 0x00
  tcf := 0x00
  flt := 0x00
  params := Params.taken
  inputs := []
  rsp := none

end Sys2Proof.Machine
end

