-- ==== Sys2Proof/Machine/Operands.lean ====
section
/-! DEFINITION. The operand forms of `imm8` (30_encoding.md R80, R86): a data byte stands for itself; a
register number, a buffer index, a candidate number and an algorithm number are read here. -/

namespace Sys2Proof.Machine

/-- The register number space (10_state.md R22), complete; any other number names no register. -/
def regOfNumber (n : Byte) : Option RegSel :=
  match n with
  | 0x00#8 => some (.reg .profv)
  | 0x01#8 => some (.reg .csalg)
  | 0x02#8 => some (.reg .ackb)
  | 0x03#8 => some (.reg .nackb)
  | 0x04#8 => some (.reg .busyb)
  | 0x08#8 => some (.reg .opndv)
  | 0x09#8 => some (.reg .ua2)
  | 0x0A#8 => some (.reg .bt)
  | 0x0B#8 => some (.reg .cmd)
  | 0x0C#8 => some (.reg .ctrl)
  | 0x0D#8 => some (.reg .data)
  | 0x10#8 => some .iblen
  | 0x11#8 => some .oblen
  | 0x18#8 => some (.reg .vfyr)
  | 0x19#8 => some (.reg .classr)
  | 0x1A#8 => some (.reg .tcstat)
  | 0x1B#8 => some (.reg .tch)
  | 0x1C#8 => some (.reg .tcm)
  | 0x1D#8 => some (.reg .tcs)
  | 0x1E#8 => some (.reg .tcf)
  | 0x1F#8 => some (.reg .flt)
  | _ => none

/-- A register's number (R22). -/
def regNumber : RegSel → Byte
  | .reg .profv => 0x00
  | .reg .csalg => 0x01
  | .reg .ackb => 0x02
  | .reg .nackb => 0x03
  | .reg .busyb => 0x04
  | .reg .opndv => 0x08
  | .reg .ua2 => 0x09
  | .reg .bt => 0x0A
  | .reg .cmd => 0x0B
  | .reg .ctrl => 0x0C
  | .reg .data => 0x0D
  | .iblen => 0x10
  | .oblen => 0x11
  | .reg .vfyr => 0x18
  | .reg .classr => 0x19
  | .reg .tcstat => 0x1A
  | .reg .tch => 0x1B
  | .reg .tcm => 0x1C
  | .reg .tcs => 0x1D
  | .reg .tcf => 0x1E
  | .reg .flt => 0x1F

/-- A buffer index is `imm8` itself, an unsigned byte (R80; 41_buffer_ops.md, head). -/
def indexOf (imm : Byte) : Nat := imm.toNat

/-- The four timecode candidates (45_timecode.md, section 2). -/
inductive Candidate where
  /-- Packed 24-bit, big-endian (R203). -/
  | packed
  /-- BCD (R204). -/
  | bcd
  /-- Plain binary (R205). -/
  | binary
  /-- Packed 24-bit, byte order reversed (R207). -/
  | reversed
  deriving DecidableEq, Repr

/-- The candidate number `k` of R216, 0x01 to 0x04. -/
def candidateOfNumber (imm : Byte) : Option Candidate :=
  match imm with
  | 0x01#8 => some .packed
  | 0x02#8 => some .bcd
  | 0x03#8 => some .binary
  | 0x04#8 => some .reversed
  | _ => none

/-- `FMT`: "candidate number minus one" (10_state.md R37). -/
def fmtOf : Candidate → Nat
  | .packed => 0
  | .bcd => 1
  | .binary => 2
  | .reversed => 3

/-- The two checksum algorithms of the cart-robot frame (R24). -/
inductive Algorithm where
  | twos
  | xor
  deriving DecidableEq, Repr

/-- `CSALG.ALG`, bit 0: 0 selects TWOS, 1 selects XOR (R24, 42_cart_codec.md R153). -/
def algorithmOf (csalg : Byte) : Algorithm := if csalg.getLsbD 0 then .xor else .twos

end Sys2Proof.Machine
end

