-- ==== Sys2Proof/Machine/Flags.lean ====
section
/-! DEFINITION. The written-masks, the result registers and the response word: the bits of `PROFV`, `OPNDV`,
`VFYR`, `CLASS`, `TCSTAT`, `FLT` (10_state.md R23, R26, R35 to R39) and of `RSP` (30_encoding.md R83). -/

namespace Sys2Proof.Machine

/-- `PROFV.ALGV` (R23). -/
def algvBit : Byte := 0x01
/-- `PROFV.ACKV` (R23). -/
def ackvBit : Byte := 0x02
/-- `PROFV.NACKV` (R23). -/
def nackvBit : Byte := 0x04
/-- `PROFV.BUSYV` (R23). -/
def busyvBit : Byte := 0x08

/-- `OPNDV.UA2V` (R26). -/
def ua2vBit : Byte := 0x01
/-- `OPNDV.BTV` (R26). -/
def btvBit : Byte := 0x02
/-- `OPNDV.CMDV` (R26). -/
def cmdvBit : Byte := 0x04
/-- `OPNDV.CTRLV` (R26). -/
def ctrlvBit : Byte := 0x08
/-- `OPNDV.DATAV` (R26). -/
def datavBit : Byte := 0x10

/-- `PROFV.ALGV` is 1: `CSALG` has been written since reset (R23). -/
def algWritten (s : State) : Bool := s.profv.getLsbD 0

/-- `PROFV[3:1] == 0b111` (44_classifier.md R187). -/
def classBytesWritten (s : State) : Bool := s.profv.extractLsb' 1 3 == 0b111#3

/-- `OPNDV[4:0] == 0b11111` (42_cart_codec.md R155). -/
def operandsWritten (s : State) : Bool := s.opndv.extractLsb' 0 5 == 0b11111#5

/-- The fault code `FC` (60_exceptions.md R231). -/
def faultNumber : FaultCode → Nat
  | .illegalOp => 1
  | .illegalOperand => 2
  | .notConfigured => 3
  | .lengthError => 4
  | .overflow => 5
  | .indexError => 6

/-- Bit `c - 1` of `FLT` for fault code `c` (R39). -/
def faultBit (c : FaultCode) : Byte := 1#8 <<< (faultNumber c - 1)

/-- `RSP` of a completed operation: `0x00 ∥ d` (30_encoding.md R84). -/
def rspDone (d : Byte) : RspWord := 0x00#8 ++ d

/-- `RSP` of a faulted operation: `(0x80 + c) ∥ 0x00` (R84; R232: 0x8000 + (c << 8)). -/
def rspFault (c : FaultCode) : RspWord := (0x80#8 + BitVec.ofNat 8 (faultNumber c)) ++ 0x00#8

/-- The data byte of a verification, and bit 0 of `VFYR` (R85, R35). -/
def okByte (ok : Bool) : Byte := if ok then 0x01 else 0x00

/-- `VFYR <- 0x80 + ok` (42_cart_codec.md R157). -/
def vfyrValue (ok : Bool) : Byte := 0x80 + okByte ok

/-- The five classes of a response (44_classifier.md R185). -/
inductive RespClass where
  | empty
  | ack
  | nack
  | busy
  | data
  deriving DecidableEq, Repr

/-- `CLASS.CODE` (10_state.md R36). -/
def classCode : RespClass → Byte
  | .empty => 0
  | .ack => 1
  | .nack => 2
  | .busy => 3
  | .data => 4

/-- `CLASS <- 0x80 + c` (44_classifier.md R187). -/
def classValue (c : RespClass) : Byte := 0x80 + classCode c

/-- `TCSTAT <- 0x80 + (sent << 3) + (fmt << 1) + found` (45_timecode.md R211). -/
def tcstatValue (found : Bool) (fmt : Nat) (sent : Bool) : Byte :=
  0x80#8 + (BitVec.ofBool sent).setWidth 8 <<< 3 + BitVec.ofNat 8 fmt <<< 1 + (BitVec.ofBool found).setWidth 8

end Sys2Proof.Machine
end

