-- ==== Sys2Proof/Machine/Ops.lean ====
section
/-! DEFINITION. The named operations over registers and buffers (20_memory.md), the two ways an operation
ends, `respond` and `raise` (30_encoding.md R84, 60_exceptions.md R232), and reset (70_reset_and_hazards.md
R260). The spec has no return from a fault: "nothing was entered" (R235). -/

namespace Sys2Proof.Machine

/-- The outcome of an operation or a step. -/
abbrev Outcome := Host.Outcome State Fault Refusal

/-- `R.NAME` for a register with storage of its own (00_scope.md section 5). -/
def State.readReg (s : State) : Reg → Byte
  | .profv => s.profv
  | .csalg => s.csalg
  | .ackb => s.ackb
  | .nackb => s.nackb
  | .busyb => s.busyb
  | .opndv => s.opndv
  | .ua2 => s.ua2
  | .bt => s.bt
  | .cmd => s.cmd
  | .ctrl => s.ctrl
  | .data => s.data
  | .vfyr => s.vfyr
  | .classr => s.classr
  | .tcstat => s.tcstat
  | .tch => s.tch
  | .tcm => s.tcm
  | .tcs => s.tcs
  | .tcf => s.tcf
  | .flt => s.flt

/-- `R.NAME <- v` (00_scope.md section 5): that register alone changes. -/
def State.writeReg (s : State) (r : Reg) (v : Byte) : State :=
  match r with
  | .profv => { s with profv := v }
  | .csalg => { s with csalg := v }
  | .ackb => { s with ackb := v }
  | .nackb => { s with nackb := v }
  | .busyb => { s with busyb := v }
  | .opndv => { s with opndv := v }
  | .ua2 => { s with ua2 := v }
  | .bt => { s with bt := v }
  | .cmd => { s with cmd := v }
  | .ctrl => { s with ctrl := v }
  | .data => { s with data := v }
  | .vfyr => { s with vfyr := v }
  | .classr => { s with classr := v }
  | .tcstat => { s with tcstat := v }
  | .tch => { s with tch := v }
  | .tcm => { s with tcm := v }
  | .tcs => { s with tcs := v }
  | .tcf => { s with tcf := v }
  | .flt => { s with flt := v }

/-- `IBLEN`, the number of valid bytes in `IB` (10_state.md R30, R32); a byte, since `IBCAP` <= 255. -/
def State.iblen (s : State) : Byte := BitVec.ofNat 8 s.ib.length

/-- `OBLEN`, the number of valid bytes in `OB` (R31, R32). -/
def State.oblen (s : State) : Byte := BitVec.ofNat 8 s.ob.length

/-- The read of any of the 21 registers of R22. -/
def State.read (s : State) : RegSel → Byte
  | .reg r => s.readReg r
  | .iblen => s.iblen
  | .oblen => s.oblen

/-- The three address spaces (20_memory.md R60). -/
inductive Space where
  | ib
  | ob
  | reg
  deriving DecidableEq, Repr

/-- `MemRead(space, i, 1)` (R61): the byte at index `i`, and no value where R61 defines none: at or past
the valid length of a buffer, or at a number that names no register. -/
def State.memRead (s : State) (space : Space) (i : Byte) : Option Byte :=
  match space with
  | .ib => s.ib[indexOf i]?
  | .ob => s.ob[indexOf i]?
  | .reg => (regOfNumber i).map s.read

/-- The writes of `IB` (R62): its whole valid content, and with it `IBLEN`. -/
def State.setIb (s : State) (b : Buffer) : State := { s with ib := b }

/-- The writes of `OB` (R62): "each of which replaces the whole valid content" (R31), and with it `OBLEN`. -/
def State.setOb (s : State) (b : Buffer) : State := { s with ob := b }

/-- The response word presented on the port. -/
def State.setRsp (s : State) (r : Option RspWord) : State := { s with rsp := r }

/-- The input the host presents next is taken; `rest` is what it presents after. -/
def State.setInputs (s : State) (rest : List HostInput) : State := { s with inputs := rest }

/-- A `SET` operation's two writes: the register, and its bit of a written-mask (40_config_ops.md R121). -/
def State.setMarked (s : State) (r mask : Reg) (bit v : Byte) : State :=
  (s.writeReg r v).writeReg mask (s.readReg mask ||| bit)

/-- `respond(d)`: the operation ends without fault, and all its writes stand (30_encoding.md R84). -/
def respond (d : Byte) (s : State) : Outcome := .next (s.setRsp (some (rspDone d)))

/-- `raise Fault(c)`: fault entry, exactly as 60_exceptions.md R232 gives it. Bit `c - 1` of `FLT` is set,
the response carries the code, nothing else changes, and the block is ready for the next operation. -/
def raise (c : FaultCode) (s : State) : Outcome :=
  .next ((s.writeReg .flt (s.flt ||| faultBit c)).setRsp (some (rspFault c)))

/-- Every piece of the block's state at its reset value (R40, R260), no response presented. The parameters
(R264) and what the host will present are no state of the block (00_scope.md R12) and stay. -/
def State.toReset (s : State) : State :=
  { State.reset with params := s.params, inputs := s.inputs }

/-- The canonical form of the two buffers (log 4): the valid bytes, index 0 first, no more of them than the
buffer holds (R30, R31). Equal buffers are equal lists. -/
def Memory.wf (s : State) : Bool :=
  s.ib.length ≤ s.params.ibcap && (s.ob.length == 0 || s.ob.length == 3 || s.ob.length == 4 || s.ob.length == 9)

end Sys2Proof.Machine
end

