-- ==== Sys2Proof/Machine/BufferOps.lean ====
section
/-! DEFINITION. The buffer and read-back operations, 41_buffer_ops.md. -/

namespace Sys2Proof.Machine

/-- IBCLR, R130: `IBLEN <- 0`; the old bytes become unobservable (10_state.md R32). -/
def execIbclr (s : State) : Outcome := respond 0x00 (s.setIb [])

/-- IBPUSH, R131: Overflow when `IBLEN == IBCAP`, else append; answers the new `IBLEN`. -/
def execIbpush (imm : Byte) (s : State) : Outcome :=
  if s.ib.length = s.params.ibcap then raise .overflow s
  else
    let t := s.setIb (s.ib ++ [imm])
    respond t.iblen t

/-- OB2IB, R132: the whole valid content of `IB` becomes that of `OB`; answers the new `IBLEN`. -/
def execOb2ib (s : State) : Outcome :=
  let t := s.setIb s.ob
  respond t.iblen t

/-- A read-back: the byte read is the answer, no state changes; where there is no such location the
operation is refused with `c` (R134, R135, R136). -/
def readBack (space : Space) (c : FaultCode) (imm : Byte) (s : State) : Outcome :=
  match s.memRead space imm with
  | some b => respond b s
  | none => raise c s

/-- RDREG, R134: IllegalOperand for a number that names no register. -/
def execRdreg (imm : Byte) (s : State) : Outcome := readBack .reg .illegalOperand imm s

/-- RDOB, R135: IndexError when `imm8 >= OBLEN`. -/
def execRdob (imm : Byte) (s : State) : Outcome := readBack .ob .indexError imm s

/-- RDIB, R136: IndexError when `imm8 >= IBLEN`. -/
def execRdib (imm : Byte) (s : State) : Outcome := readBack .ib .indexError imm s

end Sys2Proof.Machine
end

