-- ==== Sys2Proof/Machine/Classifier.lean ====
section
/-! DEFINITION. The response classifier, 44_classifier.md: CLSFY. -/

namespace Sys2Proof.Machine

/-- The classification function (R186), tested in this order; only the first byte and the emptiness of the
response are examined. -/
def classify (raw : List Byte) (ack nack busy : Byte) : RespClass :=
  match raw with
  | [] => .empty
  | b :: _ =>
    if b = ack then .ack
    else if b = nack then .nack
    else if b = busy then .busy
    else .data

/-- CLSFY, R187: NotConfigured unless all of ACKV, NACKV, BUSYV are set; answers the class code. -/
def execClsfy (s : State) : Outcome :=
  if classBytesWritten s then
    let c := classify s.ib s.ackb s.nackb s.busyb
    respond (classCode c) (s.writeReg .classr (classValue c))
  else raise .notConfigured s

end Sys2Proof.Machine
end

