-- ==== Sys2Proof/Machine/Control.lean ====
section
/-! DEFINITION. The control and configuration operations, 40_config_ops.md. -/

namespace Sys2Proof.Machine

/-- NOP, R110: `respond(0x00)`, no state changes at all. -/
def execNop (s : State) : Outcome := respond 0x00 s

/-- SRST, R111: every piece of state to its reset value (R40), then `respond(0x00)`. -/
def execSrst (s : State) : Outcome := respond 0x00 s.toReset

/-- SETALG, R112: 0x00 TWOS, 0x01 XOR, any other value is refused with IllegalOperand. -/
def execSetalg (imm : Byte) (s : State) : Outcome :=
  if 0x01 < imm then raise .illegalOperand s
  else respond 0x00 (s.setMarked .csalg .profv algvBit imm)

/-- SETACK, R113. -/
def execSetack (imm : Byte) (s : State) : Outcome := respond 0x00 (s.setMarked .ackb .profv ackvBit imm)

/-- SETNACK, R114. -/
def execSetnack (imm : Byte) (s : State) : Outcome := respond 0x00 (s.setMarked .nackb .profv nackvBit imm)

/-- SETBUSY, R115. -/
def execSetbusy (imm : Byte) (s : State) : Outcome := respond 0x00 (s.setMarked .busyb .profv busyvBit imm)

/-- SETUA2, R116. -/
def execSetua2 (imm : Byte) (s : State) : Outcome := respond 0x00 (s.setMarked .ua2 .opndv ua2vBit imm)

/-- SETBT, R117. -/
def execSetbt (imm : Byte) (s : State) : Outcome := respond 0x00 (s.setMarked .bt .opndv btvBit imm)

/-- SETCMD, R118. -/
def execSetcmd (imm : Byte) (s : State) : Outcome := respond 0x00 (s.setMarked .cmd .opndv cmdvBit imm)

/-- SETCTRL, R119. -/
def execSetctrl (imm : Byte) (s : State) : Outcome := respond 0x00 (s.setMarked .ctrl .opndv ctrlvBit imm)

/-- SETDATA, R120. -/
def execSetdata (imm : Byte) (s : State) : Outcome := respond 0x00 (s.setMarked .data .opndv datavBit imm)

end Sys2Proof.Machine
end

