-- ==== Sys2Proof/Machine/Cart.lean ====
section
/-! DEFINITION. The cart-robot frame codec, 42_cart_codec.md: the two checksums, the frame, CENC and CVFY. -/

namespace Sys2Proof.Machine

/-- `STX`, frame byte 0, wired (10_state.md R28). -/
def frameStx : Byte := 0x02
/-- `BC`, byte-count, frame byte 1, wired (R28). -/
def frameBc : Byte := 0x06
/-- `UA1`, unit-address-1, frame byte 2, wired (R28). -/
def frameUa1 : Byte := 0x01

/-- The covered bytes `F[1..8)` (R150): `STX` and the checksum position are not covered. -/
def covered (f : List Byte) : List Byte := (f.drop 1).take 7

/-- The exclusive or of the bytes, `0x00` for none (00_scope.md section 4). -/
def xorAll : List Byte → Byte
  | [] => 0x00
  | b :: bs => b ^^^ xorAll bs

/-- The sum of the bytes as a natural, 0 for none (00_scope.md section 4). -/
def sumAll : List Byte → Nat
  | [] => 0
  | b :: bs => b.toNat + sumAll bs

/-- Checksum algorithm TWOS (R151), with the outer `mod` (90_conflicts.md C1). -/
def csTwos (f : List Byte) : Byte := BitVec.ofNat 8 ((0x100 - sumAll (covered f) % 0x100) % 0x100)

/-- Checksum algorithm XOR (R152), over the same seven bytes. -/
def csXor (f : List Byte) : Byte := xorAll (covered f)

/-- The selected checksum (R153). -/
def checksum : Algorithm → List Byte → Byte
  | .twos, f => csTwos f
  | .xor, f => csXor f

/-- The frame constructor (R154): the eight bytes before the checksum, then the checksum. -/
def cartFrame (alg : Algorithm) (ua2 bt cmd ctrl data : Byte) : List Byte :=
  let p := [frameStx, frameBc, frameUa1, ua2, bt, cmd, ctrl, data]
  p ++ [checksum alg p]

/-- The verifier (R156): `F[8] == cs(alg, F)`, and nothing else is tested. -/
def cartOk (alg : Algorithm) (f : List Byte) : Bool := f[8]? == some (checksum alg f)

/-- The frame that CENC builds from the registers (R155). -/
def State.frame (s : State) : List Byte := cartFrame (algorithmOf s.csalg) s.ua2 s.bt s.cmd s.ctrl s.data

/-- CENC, R155: NotConfigured unless the algorithm and all five operands have been written; answers the
checksum byte, `OB[8]`. -/
def execCenc (s : State) : Outcome :=
  if algWritten s && operandsWritten s then
    respond (s.frame.getLastD 0x00) (s.setOb s.frame)
  else raise .notConfigured s

/-- CVFY, R157: NotConfigured is tested first, then the length; a mismatch is a result, not a fault. -/
def execCvfy (s : State) : Outcome :=
  if !algWritten s then raise .notConfigured s
  else if s.ib.length ≠ 9 then raise .lengthError s
  else
    let ok := cartOk (algorithmOf s.csalg) s.ib
    respond (okByte ok) (s.writeReg .vfyr (vfyrValue ok))

end Sys2Proof.Machine
end

