-- ==== Sys2Proof/Machine/NinePin.lean ====
section
/-! DEFINITION. The nine-pin packet codec, 43_ninepin_codec.md: NENC and NVFY. Its checksum is always XOR
and reads no profile register (R171). -/

namespace Sys2Proof.Machine

/-- `np_cs(P)`: the exclusive or of all the bytes, the first included (R170). -/
def npChecksum (p : List Byte) : Byte := xorAll p

/-- `np_packet(P) = P ++ [np_cs(P)]` (R172). -/
def npPacket (p : List Byte) : List Byte := p ++ [npChecksum p]

/-- `np_ok(Q) = (Q[m-1] == np_cs(Q[0..m-1)))` (R172). -/
def npOk (q : List Byte) : Bool := q.getLast? == some (npChecksum q.dropLast)

/-- NENC, R173: LengthError unless `IBLEN` is 2 or 3; answers the checksum byte. -/
def execNenc (s : State) : Outcome :=
  if s.ib.length ≠ 2 ∧ s.ib.length ≠ 3 then raise .lengthError s
  else respond (npChecksum s.ib) (s.setOb (npPacket s.ib))

/-- NVFY, R175: LengthError unless `IBLEN` is 3 or 4; writes the same register as CVFY. -/
def execNvfy (s : State) : Outcome :=
  if s.ib.length ≠ 3 ∧ s.ib.length ≠ 4 then raise .lengthError s
  else
    let ok := npOk s.ib
    respond (okByte ok) (s.writeReg .vfyr (vfyrValue ok))

end Sys2Proof.Machine
end

