-- ==== Sys2Proof/Machine/Timecode.lean ====
section
/-! DEFINITION. The timecode decoder, 45_timecode.md: the four candidates, the sentinel screen, the chain,
TCDEC and TCCAND. -/

namespace Sys2Proof.Machine

/-- A time value: "four unsigned numbers (h, m, s, f)" (R200), before or after validation. -/
structure TimeValue where
  h : Nat
  m : Nat
  s : Nat
  f : Nat
  deriving DecidableEq, Repr

/-- `tc_valid` (R200); a value that is not valid is rejected, never clamped (R201). -/
def tcValid (v : TimeValue) : Bool := v.h ≤ 23 && v.m ≤ 59 && v.s ≤ 59 && v.f ≤ 29

/-- `unpack24` (R202): `h = V[22:18]`, `m = V[17:12]`, `s = V[11:6]`, `f = V[5:0]`; bit 23 is not read. -/
def unpack24 (v : Packed) : TimeValue where
  h := (v.extractLsb' 18 5).toNat
  m := (v.extractLsb' 12 6).toNat
  s := (v.extractLsb' 6 6).toNat
  f := (v.extractLsb' 0 6).toNat

/-- The high nibble `b[7:4]`. -/
def hiNibble (b : Byte) : Nat := (b.extractLsb' 4 4).toNat
/-- The low nibble `b[3:0]`. -/
def loNibble (b : Byte) : Nat := (b.extractLsb' 0 4).toNat

/-- `bcd(b) = b[7:4] * 10 + b[3:0]` (R204). -/
def bcdByte (b : Byte) : Nat := hiNibble b * 10 + loNibble b

/-- Both nibbles are decimal digits (R206). -/
def isBcd (b : Byte) : Bool := hiNibble b ≤ 9 && loNibble b ≤ 9

/-- Candidate 1 (R203): `V = B[0] ∥ B[1] ∥ B[2]`; nothing when a byte is missing. -/
def candPacked : List Byte → Option TimeValue
  | b0 :: b1 :: b2 :: _ => some (unpack24 (b0 ++ b1 ++ b2))
  | _ => none

/-- Candidate 2 (R204); with `BCD_STRICT` a nibble above 9 yields nothing (R206). -/
def candBcd (strict : Bool) : List Byte → Option TimeValue
  | b0 :: b1 :: b2 :: b3 :: _ =>
    if strict && !(isBcd b0 && isBcd b1 && isBcd b2 && isBcd b3) then none
    else some ⟨bcdByte b0, bcdByte b1, bcdByte b2, bcdByte b3⟩
  | _ => none

/-- Candidate 3 (R205): the four bytes themselves. -/
def candBinary : List Byte → Option TimeValue
  | b0 :: b1 :: b2 :: b3 :: _ => some ⟨b0.toNat, b1.toNat, b2.toNat, b3.toNat⟩
  | _ => none

/-- Candidate 4 (R207): `V = B[2] ∥ B[1] ∥ B[0]`, the first three bytes reversed. -/
def candReversed : List Byte → Option TimeValue
  | b0 :: b1 :: b2 :: _ => some (unpack24 (b2 ++ b1 ++ b0))
  | _ => none

/-- `cand_k(B, n)`, before validation (45_timecode.md section 2). -/
def candidateValue (strict : Bool) (k : Candidate) (b : List Byte) : Option TimeValue :=
  match k with
  | .packed => candPacked b
  | .bcd => candBcd strict b
  | .binary => candBinary b
  | .reversed => candReversed b

/-- The value of a candidate that passes (R208): it yields numbers and they are valid. -/
def passValue (strict : Bool) (k : Candidate) (b : List Byte) : Option TimeValue :=
  (candidateValue strict k b).filter tcValid

/-- The sentinel screen (R209); both "all" tests run over every byte received, so no bytes is a sentinel. -/
def sentinel (b : List Byte) : Bool :=
  b.all (· == 0x00) || b.all (· == 0xFF) || b.head? == some 0x91

/-- The result of a timecode operation: what R210 calls `found`, `sent`, `fmt` and `value`. -/
inductive TcResult where
  /-- found = 0, sent = 1. -/
  | screened
  /-- found = 0, sent = 0. -/
  | noDecode
  /-- found = 1, by this candidate, with this value. -/
  | found (k : Candidate) (v : TimeValue)
  deriving DecidableEq, Repr

/-- The priority order of the chain, "the order of the source's numbered list" (R210). -/
def chainOrder : List Candidate := [.packed, .bcd, .binary, .reversed]

/-- The first candidate of the list that passes wins (R210). -/
def firstPass (strict : Bool) (b : List Byte) : List Candidate → TcResult
  | [] => .noDecode
  | k :: ks =>
    match passValue strict k b with
    | some v => .found k v
    | none => firstPass strict b ks

/-- `tc_decode(B, n)` (R210): the screen, then the chain. -/
def tcDecode (strict : Bool) (b : List Byte) : TcResult :=
  if sentinel b then .screened else firstPass strict b chainOrder

/-- One candidate alone, without the screen and without the chain (R216). -/
def tcOne (strict : Bool) (k : Candidate) (b : List Byte) : TcResult := firstPass strict b [k]

/-- `TCSTAT` of a result (R211). -/
def tcStatus : TcResult → Byte
  | .screened => tcstatValue false 0 true
  | .noDecode => tcstatValue false 0 false
  | .found k _ => tcstatValue true (fmtOf k) false

/-- The time that is written: the value found, or all zero (R211). -/
def tcTime : TcResult → TimeValue
  | .found _ v => v
  | .screened | .noDecode => ⟨0, 0, 0, 0⟩

/-- `tc_commit` (R211): the five result registers. A value that passed fits a byte (R200; log 10). -/
def State.tcCommit (s : State) (r : TcResult) : State :=
  ((((s.writeReg .tcstat (tcStatus r)).writeReg .tch (BitVec.ofNat 8 (tcTime r).h)).writeReg .tcm
    (BitVec.ofNat 8 (tcTime r).m)).writeReg .tcs (BitVec.ofNat 8 (tcTime r).s)).writeReg .tcf
    (BitVec.ofNat 8 (tcTime r).f)

/-- TCDEC, R214: never a fault; answers the new `TCSTAT`. -/
def execTcdec (s : State) : Outcome :=
  let r := tcDecode s.params.bcdStrict s.ib
  respond (tcStatus r) (s.tcCommit r)

/-- TCCAND, R216: IllegalOperand unless `imm8` is 1 to 4; answers the new `TCSTAT`. -/
def execTccand (imm : Byte) (s : State) : Outcome :=
  match candidateOfNumber imm with
  | none => raise .illegalOperand s
  | some k =>
    let r := tcOne s.params.bcdStrict k s.ib
    respond (tcStatus r) (s.tcCommit r)

end Sys2Proof.Machine
end

