-- ==== Sys2Proof/Machine/Dispatch.lean ====
section
/-! DEFINITION. One arm per operation of the opcode map (30_encoding.md R86), in its order. -/

namespace Sys2Proof.Machine

def exec (i : Instr) (s : State) : Host.Outcome State Fault Refusal :=
  match i with
  | .nop => Sys2Proof.Machine.execNop s
  | .srst => Sys2Proof.Machine.execSrst s
  | .setalg imm => Sys2Proof.Machine.execSetalg imm s
  | .setack imm => Sys2Proof.Machine.execSetack imm s
  | .setnack imm => Sys2Proof.Machine.execSetnack imm s
  | .setbusy imm => Sys2Proof.Machine.execSetbusy imm s
  | .setua2 imm => Sys2Proof.Machine.execSetua2 imm s
  | .setbt imm => Sys2Proof.Machine.execSetbt imm s
  | .setcmd imm => Sys2Proof.Machine.execSetcmd imm s
  | .setctrl imm => Sys2Proof.Machine.execSetctrl imm s
  | .setdata imm => Sys2Proof.Machine.execSetdata imm s
  | .ibclr => Sys2Proof.Machine.execIbclr s
  | .ibpush imm => Sys2Proof.Machine.execIbpush imm s
  | .ob2ib => Sys2Proof.Machine.execOb2ib s
  | .cenc => Sys2Proof.Machine.execCenc s
  | .cvfy => Sys2Proof.Machine.execCvfy s
  | .nenc => Sys2Proof.Machine.execNenc s
  | .nvfy => Sys2Proof.Machine.execNvfy s
  | .clsfy => Sys2Proof.Machine.execClsfy s
  | .tcdec => Sys2Proof.Machine.execTcdec s
  | .tccand imm => Sys2Proof.Machine.execTccand imm s
  | .rdreg imm => Sys2Proof.Machine.execRdreg imm s
  | .rdob imm => Sys2Proof.Machine.execRdob imm s
  | .rdib imm => Sys2Proof.Machine.execRdib imm s

end Sys2Proof.Machine
end

