-- ==== Sys2Proof/Machine/Accept.lean ====
section
/-! DEFINITION. What the block does with one input of the host: an operation word, a cycle of `rst`, or
nothing (30_encoding.md R82, R87; 70_reset_and_hazards.md R260; 60_exceptions.md R246). -/

namespace Sys2Proof.Machine

/-- One accepted operation word, executed completely (R82): a reserved word is refused with IllegalOp
(R87), any other runs its operation. -/
def acceptWord (w : OpWord) (s : State) : Outcome :=
  match decode w with
  | .ok i => exec i s
  | .error c => raise c s

/-- One cycle of the reset input (R260): every piece of state at its reset value, no response (log 12). -/
def resetCycle (s : State) : Outcome := .next s.toReset

/-- Nothing is presented: the block "is idle with all state retained" (R246) and answers nothing. -/
def idle (s : State) : Outcome := .next (s.setRsp none)

/-- What the block does with an input the host presents; the input has been taken from the queue. -/
def takeInput (x : HostInput) (s : State) : Outcome :=
  match x with
  | .op w => acceptWord w s
  | .rst => resetCycle s

/-- The host presents the word next, before all else it presents. -/
def presentWord (w : OpWord) (s : State) : State := s.setInputs (.op w :: s.inputs)

end Sys2Proof.Machine
end

