-- ==== Sys2Proof/Machine/Step.lean ====
section
/-! DEFINITION. One step of the machine: the oldest input the host presents is taken and carried out
(00_scope.md R11, R14: "it steps from operation to operation", 70_reset_and_hazards.md R280). -/

namespace Sys2Proof.Machine

/-- One step. -/
def step (s : State) : Host.Outcome State Fault Refusal :=
  match s.inputs with
  | [] => idle s
  | x :: rest => takeInput x (s.setInputs rest)

/-- The state with the word of these bits (spec/opcode_table.json's numbering) presented next on the port:
that is where step takes its next operation (log 1). -/
def State.withFetchWord (s : State) (nbits w : Nat) : State := presentWord (tableWord nbits w) s

end Sys2Proof.Machine
end

