-- ==== Sys2Proof/Machine/Asm.lean ====
section
/-! DEFINITION. The textual form of an operation and the pseudo-operations, 30_encoding.md part C (R103,
R104). "The block never sees the pseudo-operation": nothing here is used by `step`. -/

namespace Sys2Proof.Machine

/-- A pseudo-operation (R104). -/
inductive Pseudo where
  | profile (alg ack nack busy : Byte)
  | cartops (ua2 bt cmd ctrl data : Byte)
  | ibload (bytes : List Byte)
  /-- `n` is 1 to 9. -/
  | rdpkt (n : Nat)
  | rdtc
  | loopback
  deriving DecidableEq, Repr

/-- The exact expansion, in this order (R104). -/
def expand : Pseudo → List Instr
  | .profile alg ack nack busy => [.setalg alg, .setack ack, .setnack nack, .setbusy busy]
  | .cartops ua2 bt cmd ctrl data => [.setua2 ua2, .setbt bt, .setcmd cmd, .setctrl ctrl, .setdata data]
  | .ibload bytes => .ibclr :: bytes.map .ibpush
  | .rdpkt n => (List.range n).map fun i => .rdob (BitVec.ofNat 8 i)
  | .rdtc => ([.reg .tcstat, .reg .tch, .reg .tcm, .reg .tcs, .reg .tcf] : List RegSel).map fun r => .rdreg (regNumber r)
  | .loopback => [.ob2ib]

/-- The register names of 10_state.md R22, which "may stand for their numbers after `RDREG`" (R103). -/
def regNames : List (String × RegSel) :=
  [("PROFV", .reg .profv), ("CSALG", .reg .csalg), ("ACKB", .reg .ackb), ("NACKB", .reg .nackb),
   ("BUSYB", .reg .busyb), ("OPNDV", .reg .opndv), ("UA2", .reg .ua2), ("BT", .reg .bt), ("CMD", .reg .cmd),
   ("CTRL", .reg .ctrl), ("DATA", .reg .data), ("IBLEN", .iblen), ("OBLEN", .oblen), ("VFYR", .reg .vfyr),
   ("CLASS", .reg .classr), ("TCSTAT", .reg .tcstat), ("TCH", .reg .tch), ("TCM", .reg .tcm),
   ("TCS", .reg .tcs), ("TCF", .reg .tcf), ("FLT", .reg .flt)]

/-- A digit of a number in base 10 or 16; hexadecimal digits in either case (log 11). -/
def digitOf (base : Nat) (c : Char) : Option Nat :=
  let v :=
    if '0' ≤ c && c ≤ '9' then c.toNat - '0'.toNat
    else if 'a' ≤ c && c ≤ 'f' then c.toNat - 'a'.toNat + 10
    else if 'A' ≤ c && c ≤ 'F' then c.toNat - 'A'.toNat + 10
    else base
  if v < base then some v else none

/-- The number that digits spell, after those read already. -/
def digitsFrom (base acc : Nat) : List Char → Option Nat
  | [] => some acc
  | c :: cs =>
    match digitOf base c with
    | some d => digitsFrom base (acc * base + d) cs
    | none => none

/-- An operand number: "`0x` hexadecimal or decimal, 0 to 255" (R103). -/
def numberOf (cs : List Char) : Option Byte :=
  let n :=
    match cs with
    | '0' :: 'x' :: d :: ds => digitsFrom 16 0 (d :: ds)
    | d :: ds => digitsFrom 10 0 (d :: ds)
    | [] => none
  match n with
  | some v => if v ≤ 255 then some (BitVec.ofNat 8 v) else none
  | none => none

/-- An operand as R103 admits it for this mnemonic: a number; after `RDREG` a register name; after
`SETALG` the names `TWOS` and `XOR`. -/
def operandOf (mnemonic : String) (cs : List Char) : Option Byte :=
  match numberOf cs with
  | some b => some b
  | none =>
    if mnemonic == "RDREG" then (regNames.lookup (String.ofList cs)).map regNumber
    else if mnemonic == "SETALG" then
      if cs == "TWOS".toList then some 0x00 else if cs == "XOR".toList then some 0x01 else none
    else none

/-- The operations that take an operand, by mnemonic (R86). -/
def operandOps : List (String × (Byte → Instr)) :=
  [("SETALG", .setalg), ("SETACK", .setack), ("SETNACK", .setnack), ("SETBUSY", .setbusy), ("SETUA2", .setua2),
   ("SETBT", .setbt), ("SETCMD", .setcmd), ("SETCTRL", .setctrl), ("SETDATA", .setdata), ("IBPUSH", .ibpush),
   ("TCCAND", .tccand), ("RDREG", .rdreg), ("RDOB", .rdob), ("RDIB", .rdib)]

/-- The operations that take none (R86). -/
def plainOps : List (String × Instr) :=
  [("NOP", .nop), ("SRST", .srst), ("IBCLR", .ibclr), ("OB2IB", .ob2ib), ("CENC", .cenc), ("CVFY", .cvfy),
   ("NENC", .nenc), ("NVFY", .nvfy), ("CLSFY", .clsfy), ("TCDEC", .tcdec)]

/-- A line without its comment: "`;` starts a comment to the end of the line" (R103). -/
def withoutComment (line : List Char) : List Char := line.takeWhile (· ≠ ';')

/-- The words of a line between spaces; `word` is the word being read, last character first. -/
def wordsFrom (word : List Char) : List Char → List (List Char)
  | [] => if word.isEmpty then [] else [word.reverse]
  | ' ' :: cs => if word.isEmpty then wordsFrom [] cs else word.reverse :: wordsFrom [] cs
  | c :: cs => wordsFrom (c :: word) cs

/-- One line of assembler text: the mnemonic in capitals, then, for an operation with an operand, the
operand (R103). -/
def assembleLine (line : List Char) : Option Instr :=
  match wordsFrom [] (withoutComment line) with
  | [mn] => plainOps.lookup (String.ofList mn)
  | [mn, arg] =>
    match operandOps.lookup (String.ofList mn), operandOf (String.ofList mn) arg with
    | some f, some b => some (f b)
    | _, _ => none
  | _ => none

end Sys2Proof.Machine
end

