-- ==== Sys2Proof/Machine/Port.lean ====
section
/-! DEFINITION. The pin-level wrapper of the operation port, one clock edge at a time: 30_encoding.md R81,
R82 and 70_reset_and_hazards.md R260, R262. `step` needs none of it ("a transaction-level model needs only
rules R82 to R85"); it stands beside `step` so that the handshake and an abandoned operation are modelled. -/

namespace Sys2Proof.Machine

/-- The inputs at a rising edge of `clk` (R81). -/
structure Pins where
  rst : Bool
  opValid : Bool
  opWord : OpWord
  deriving DecidableEq, Repr

/-- Where the port stands between two edges. -/
inductive Phase where
  /-- No operation in progress. -/
  | ready
  /-- The operation word is in progress; after `left` more edges its response follows. -/
  | busy (w : OpWord) (left : Nat)
  /-- The response is presented, for this one cycle. -/
  | answer (r : RspWord)
  deriving DecidableEq, Repr

/-- The block behind its pins. -/
structure Device where
  block : State
  phase : Phase
  /-- How many operations have been accepted: it selects the free latency (log 6). -/
  accepted : Nat
  deriving DecidableEq, Repr

/-- The device after a reset, with the parameters it was built with. -/
def deviceReset (d : Device) : Device :=
  { block := d.block.toReset, phase := .ready, accepted := d.accepted }

/-- `op_ready`: 0 while an operation is in progress, while its response is presented, and while `rst` is
1 (R81, R260). -/
def opReady (p : Pins) (d : Device) : Bool := !p.rst && d.phase == .ready

/-- `rsp_valid` and `rsp_word`: the word when `rsp_valid` is 1 (R81); 0 while `rst` is 1 (R260). -/
def rspOut (p : Pins) (d : Device) : Option RspWord :=
  match p.rst, d.phase with
  | false, .answer r => some r
  | _, _ => none

/-- The operation is accepted at this edge (R81). -/
def acceptsAt (p : Pins) (d : Device) : Bool := p.opValid && opReady p d

/-- The operation in progress with `left` edges to go before its response: at 0 it has run, with all its
state changes, and its one response is presented (R82). -/
def progress (w : OpWord) (left : Nat) (d : Device) : Device :=
  match left with
  | n + 1 => { d with phase := .busy w n }
  | 0 =>
    match acceptWord w d.block with
    | .next t =>
      match t.rsp with
      | some r => { d with block := t, phase := .answer r }
      | none => { d with block := t, phase := .busy w 0 }
    | .fault _ => { d with phase := .busy w 0 }
    | .refused _ => { d with phase := .busy w 0 }

/-- One rising edge of `clk`. `rst` overrides everything: an operation in progress "is abandoned: it
produces no response and whatever it had written is overwritten by the reset values" (R262). -/
def clockEdge (p : Pins) (d : Device) : Device :=
  if p.rst then deviceReset d
  else
    match d.phase with
    | .ready =>
      if p.opValid then
        progress p.opWord (Config.extraCycles d.accepted) { d with accepted := d.accepted + 1 }
      else d
    | .busy w left => progress w left d
    | .answer _ => { d with phase := .ready }

/-- The device after a list of edges, oldest first. -/
def clockEdges (d : Device) : List Pins → Device
  | [] => d
  | p :: ps => clockEdges (clockEdge p d) ps

end Sys2Proof.Machine
end

