-- ==== Sys2Proof/Safety.lean ====
section
/-! DEFINITION. The terms the claims use: what a completed and a refused operation leave, runs of operations
with their answers, and the invariant of the block. -/

namespace Sys2Proof.Machine

/-- Every register of 10_state.md R22 outside the list reads as before. -/
def RegsKeptBut (regs : List RegSel) (s t : State) : Prop := ∀ r, r ∉ regs → t.read r = s.read r

/-- The bit of `PROFV` in the operation's write set (10_state.md R41, R23), where it has one. -/
def profvBitOf : Instr → Option Nat
  | .setalg _ => some 0
  | .setack _ => some 1
  | .setnack _ => some 2
  | .setbusy _ => some 3
  | .nop | .srst | .setua2 _ | .setbt _ | .setcmd _ | .setctrl _ | .setdata _ | .ibclr | .ibpush _ | .ob2ib => none
  | .cenc | .cvfy | .nenc | .nvfy | .clsfy | .tcdec | .tccand _ | .rdreg _ | .rdob _ | .rdib _ => none

/-- The bit of `OPNDV` in the operation's write set (R41, R26), where it has one. -/
def opndvBitOf : Instr → Option Nat
  | .setua2 _ => some 0
  | .setbt _ => some 1
  | .setcmd _ => some 2
  | .setctrl _ => some 3
  | .setdata _ => some 4
  | .nop | .srst | .setalg _ | .setack _ | .setnack _ | .setbusy _ | .ibclr | .ibpush _ | .ob2ib => none
  | .cenc | .cvfy | .nenc | .nvfy | .clsfy | .tcdec | .tccand _ | .rdreg _ | .rdob _ | .rdib _ => none

/-- Every byte of both buffers is as before, and so are their lengths. -/
def BuffersKept (s t : State) : Prop := t.ib = s.ib ∧ t.ob = s.ob

/-- What is no state of the block is as before: the parameters (70_reset_and_hazards.md R264) and what the
host will present. -/
def OutsideKept (s t : State) : Prop := t.params = s.params ∧ t.inputs = s.inputs

/-- The operation completes with data byte `d` (30_encoding.md R83: `F` = 0, `FC` = 0, `D` = `d`) in a state
with this property. -/
def Completes (i : Instr) (s : State) (d : Byte) (P : State → Prop) : Prop :=
  ∃ t, exec i s = .next t ∧ t.rsp = some (0x00#8 ++ d) ∧ OutsideKept s t ∧ P t

/-- Fault entry (60_exceptions.md R232) from `s` to `t`: bit `c - 1` of `FLT` is set, the response is
`0x8000 + (c << 8)`, and nothing else changes. -/
def FaultEntered (c : FaultCode) (s t : State) : Prop :=
  t.flt = s.flt ||| (1#8 <<< (faultNumber c - 1)) ∧ t.rsp = some (0x8000#16 + (BitVec.ofNat 16 (faultNumber c) <<< 8)) ∧
    RegsKeptBut [.reg .flt] s t ∧ BuffersKept s t ∧ OutsideKept s t

/-- The operation is refused with this fault. -/
def Refuses (i : Instr) (s : State) (c : FaultCode) : Prop := ∃ t, exec i s = .next t ∧ FaultEntered c s t

/-- Every piece of the block's state has its value of 10_state.md R40. -/
def AtReset (s : State) : Prop := (∀ r, s.read r = 0x00) ∧ s.ib = [] ∧ s.ob = []

/-- The response word of a faulted operation: `F`, bit 15 (R83). -/
def faulted (r : RspWord) : Bool := r.getLsbD 15

/-- Operations one after another, each on the state the one before left, with their responses in order
(20_memory.md R70); nothing where one of them stops. -/
def answers : List Instr → State → Option (List RspWord × State)
  | [], s => some ([], s)
  | i :: is, s =>
    match exec i s with
    | .next t =>
      match t.rsp with
      | some r => (answers is t).map fun p => (r :: p.1, p.2)
      | none => none
    | .fault _ => none
    | .refused _ => none

/-- A response word as R83 lays it out: `0x00dd`, or `0x8c00` with a fault code 1 to 6. -/
def ResponseForm (r : RspWord) : Prop :=
  (∃ d : Byte, r = 0x00#8 ++ d) ∨ ∃ c : Nat, 1 ≤ c ∧ c ≤ 6 ∧ r = 0x8000#16 + (BitVec.ofNat 16 c <<< 8)

/-- What `OB` holds: nothing, or the last packet built (10_state.md R31). -/
def HoldsPacket (ob : Buffer) : Prop :=
  ob = [] ∨ (∃ alg ua2 bt cmd ctrl data, ob = cartFrame alg ua2 bt cmd ctrl data) ∨
    ∃ p, (p.length = 2 ∨ p.length = 3) ∧ ob = npPacket p

/-- `TCSTAT` and the four time registers belong together (10_state.md R37, R38). -/
def TimeRegsLegal (s : State) : Prop :=
  (s.tcstat = 0x00 ∨ s.tcstat = 0x80 ∨ s.tcstat = 0x88 ∨ s.tcstat = 0x81 ∨ s.tcstat = 0x83 ∨ s.tcstat = 0x85 ∨
    s.tcstat = 0x87) ∧
  (s.tcstat.getLsbD 0 = true → s.tch.toNat ≤ 23 ∧ s.tcm.toNat ≤ 59 ∧ s.tcs.toNat ≤ 59 ∧ s.tcf.toNat ≤ 29) ∧
  (s.tcstat.getLsbD 0 = false → s.tch = 0 ∧ s.tcm = 0 ∧ s.tcs = 0 ∧ s.tcf = 0)

/-- A profile or operand register whose written-mask bit is 0 holds its reset value (41_buffer_ops.md R134). -/
def UnwrittenZero (s : State) : Prop :=
  (s.profv.getLsbD 0 = false → s.csalg = 0) ∧ (s.profv.getLsbD 1 = false → s.ackb = 0) ∧
  (s.profv.getLsbD 2 = false → s.nackb = 0) ∧ (s.profv.getLsbD 3 = false → s.busyb = 0) ∧
  (s.opndv.getLsbD 0 = false → s.ua2 = 0) ∧ (s.opndv.getLsbD 1 = false → s.bt = 0) ∧
  (s.opndv.getLsbD 2 = false → s.cmd = 0) ∧ (s.opndv.getLsbD 3 = false → s.ctrl = 0) ∧
  (s.opndv.getLsbD 4 = false → s.data = 0)

/-- The invariant of the block: what 10_state.md says of its registers and buffers at every moment. -/
structure Invariant (s : State) : Prop where
  /-- The parameters are legal (00_scope.md R6). -/
  params_legal : s.params.Legal
  /-- The buffers keep their canonical form (R30, R31). -/
  memory_wf : Memory.wf s = true
  /-- `PROFV` bits 7 to 4 read as zero (R23). -/
  profv_reserved : s.profv &&& 0xF0 = 0
  /-- `CSALG` bits 7 to 1 read as zero (R24). -/
  csalg_reserved : s.csalg &&& 0xFE = 0
  /-- `OPNDV` bits 7 to 5 read as zero (R26). -/
  opndv_reserved : s.opndv &&& 0xE0 = 0
  unwritten_zero : UnwrittenZero s
  ob_packet : HoldsPacket s.ob
  /-- The register reads 0x00, 0x80 or 0x81 (R35). -/
  vfyr_legal : s.vfyr = 0x00 ∨ s.vfyr = 0x80 ∨ s.vfyr = 0x81
  /-- The register reads 0x00 or 0x80 to 0x84 (R36). -/
  classr_legal : s.classr = 0x00 ∨ (0x80 ≤ s.classr ∧ s.classr ≤ 0x84)
  time_legal : TimeRegsLegal s
  /-- `FLT` bits 7 and 6 read as zero (R39). -/
  flt_reserved : s.flt &&& 0xC0 = 0
  rsp_form : ∀ r, s.rsp = some r → ResponseForm r

end Sys2Proof.Machine
end

