-- ==== Sys2Proof/Certificates/Slice0/Obligations.lean ====
section
/-! DEFINITION. The statements for the provers, from the numbered rules of spec/. -/

open Sys2Proof Sys2Proof.Machine

/-! ### Reset, step, decoding -/

/-- 10_state.md R40: after reset every register of the 21 reads 0x00 and both buffers are empty. -/
def Obligations.ResetClearsRegistersAndBuffers : Prop := AtReset State.reset

/-- The invariant of the block holds right after reset (derived; the parameter values are those R6 takes,
log 3, and no response is presented, log 2). -/
def Obligations.ResetMeetsInvariant : Prop := Invariant State.reset

/-- The invariant of 10_state.md holds after every step from every state that meets it. -/
def Obligations.StepKeepsInvariant : Prop := ∀ s t, Invariant s → step s = .next t → Invariant t

/-- A step runs the operation that the oldest presented word decodes to, on the state from which that word
has been taken (log 1); and a word stored by `withFetchWord` is that word. -/
def Obligations.StepRunsTheDecodedOperation : Prop :=
  (∀ s w rest i, s.inputs = .op w :: rest → decode w = .ok i → step s = exec i { s with inputs := rest }) ∧
    ∀ s w i, decode w = .ok i → step (s.withFetchWord 16 w.toNat) = exec i s

/-- 60_exceptions.md R246: between operations the block is idle with all state retained. -/
def Obligations.IdleBlockKeepsItsState : Prop :=
  ∀ s, s.inputs = [] → ∃ t, step s = .next t ∧ t.rsp = none ∧ RegsKeptBut [] s t ∧ BuffersKept s t ∧ OutsideKept s t

/-- Every step goes on: no state stops the block, and an accepted word gives exactly one response of the
layout of 30_encoding.md R83. -/
def Obligations.EveryWordGetsOneResponse : Prop :=
  (∀ s, ∃ t, step s = .next t) ∧
    ∀ w s, ∃ t r, acceptWord w s = .next t ∧ t.rsp = some r ∧ ResponseForm r

/-- Words written out from 30_encoding.md R86, one of each family of the map, decode to their operation. -/
def Obligations.SpecWordsDecode : Prop :=
  decode 0x0000 = .ok .nop ∧ decode 0x1104 = .ok (.setack 0x04) ∧ decode 0x2261 = .ok (.setcmd 0x61) ∧
    decode 0x31AA = .ok (.ibpush 0xAA) ∧ decode 0x4000 = .ok .cenc ∧ decode 0x4900 = .ok .nvfy ∧
    decode 0x5000 = .ok .clsfy ∧ decode 0x6102 = .ok (.tccand 0x02) ∧ decode 0x701A = .ok (.rdreg 0x1A) ∧
    decode 0x4001 = .error .illegalOp ∧ decode 0xFFFF = .error .illegalOp

/-- Decode and encode agree: every operation, with every operand byte, is read back from its word, well
formed or not; the word determines the operation. -/
def Obligations.DecodeReadsBackEncode : Prop := ∀ i : Instr, decode (encode i) = .ok i

/-- The other direction: an operation is decoded from its own word only. -/
def Obligations.EncodeGivesTheDecodedWord : Prop := ∀ w i, decode w = .ok i → encode i = w

/-- 30_encoding.md R89: every word selects exactly one row of the opcode map, and decodes to that row's
operation with bits 7:0 as its operand, or selects none and is illegal; no word selects two rows. -/
def Obligations.DecodeFollowsTheOpcodeMap : Prop :=
  ∀ w : OpWord, let rows := opcodeMap.filter fun r => w &&& r.mask = r.matchWord
    rows.length ≤ 1 ∧ (rows = [] ↔ decode w = .error .illegalOp) ∧
    ∀ i, decode w = .ok i ↔ (rows.map (·.mnemonic) = [i.mnemonic] ∧ ∀ b, i.operand = some b → b = w.extractLsb' 0 8)

/-- 30_encoding.md R87: the reserved words, (a) by `opc` and (b) by a non-zero `imm8` where there is no
operand: each raises IllegalOp, which changes no state but `FLT`, and is answered with 0x8100; no other word
is reserved. -/
def Obligations.ReservedWordRaisesIllegalOp : Prop :=
  ∀ o n : Byte,
    let reserved := (0x02 ≤ o ∧ o ≤ 0x0F) ∨ (0x14 ≤ o ∧ o ≤ 0x1F) ∨ (0x25 ≤ o ∧ o ≤ 0x2F) ∨ (0x33 ≤ o ∧ o ≤ 0x3F) ∨
      (0x42 ≤ o ∧ o ≤ 0x47) ∨ (0x4A ≤ o ∧ o ≤ 0x4F) ∨ (0x51 ≤ o ∧ o ≤ 0x5F) ∨ (0x62 ≤ o ∧ o ≤ 0x6F) ∨ 0x73 ≤ o ∨
      (o ∈ [0x00#8, 0x01#8, 0x30#8, 0x32#8, 0x40#8, 0x41#8, 0x48#8, 0x49#8, 0x50#8, 0x60#8] ∧ n ≠ 0x00)
    (reserved → ∀ s, ∃ t, acceptWord (o ++ n) s = .next t ∧ t.rsp = some 0x8100 ∧ FaultEntered .illegalOp s t) ∧
    (¬reserved → ∃ i, decode (o ++ n) = .ok i)

/-! ### Faults, and rules over all operations -/

/-- 60_exceptions.md R231: the code, the `FLT` bit and the response of the six faults. -/
def Obligations.FaultCodesBitsResponses : Prop :=
  [FaultCode.illegalOp, .illegalOperand, .notConfigured, .lengthError, .overflow, .indexError].map
      (fun c => (faultNumber c, faultBit c, rspFault c)) =
    [(1, 0x01, 0x8100), (2, 0x02, 0x8200), (3, 0x04, 0x8300), (4, 0x08, 0x8400), (5, 0x10, 0x8500), (6, 0x20, 0x8600)]

/-- 60_exceptions.md R232: whatever the word and the state, a faulted response means fault entry with one
code, after which the block answers whatever word comes next; and a response that is not faulted leaves
`FLT` alone, but for SRST, which clears it. -/
def Obligations.FaultChangesOnlyItsFltBit : Prop :=
  ∀ w s t r, acceptWord w s = .next t → t.rsp = some r →
    (faulted r = true → (∃ c, FaultEntered c s t) ∧ ∀ v, ∃ u q, acceptWord v t = .next u ∧ u.rsp = some q) ∧
    (faulted r = false → t.flt = s.flt ∨ (decode w = .ok .srst ∧ t.flt = 0x00))

/-- 10_state.md R39, 40_config_ops.md R121: no step but a reset, by SRST or by `rst`, clears a bit of `FLT`,
`PROFV` or `OPNDV`. -/
def Obligations.StickyBitsStayUntilReset : Prop :=
  ∀ s t k, step s = .next t → s.inputs.head? ≠ some .rst → s.inputs.head? ≠ some (.op 0x0100) →
    (s.flt.getLsbD k = true → t.flt.getLsbD k = true) ∧ (s.profv.getLsbD k = true → t.profv.getLsbD k = true) ∧
      (s.opndv.getLsbD k = true → t.opndv.getLsbD k = true)

/-- 60_exceptions.md R234: every operation with every fault it can raise; each of them it does raise in some
state, and no other in any. -/
def Obligations.FaultsOfEachOperation : Prop :=
  (∀ i s t c, exec i s = .next t → t.rsp = some (rspFault c) →
    c ∈ match i with
      | .setalg _ | .rdreg _ | .tccand _ => [FaultCode.illegalOperand]
      | .ibpush _ => [.overflow]
      | .rdob _ | .rdib _ => [.indexError]
      | .cenc | .clsfy => [.notConfigured]
      | .cvfy => [.notConfigured, .lengthError]
      | .nenc | .nvfy => [.lengthError]
      | .nop | .srst | .setack _ | .setnack _ | .setbusy _ | .setua2 _ | .setbt _ | .setcmd _ | .setctrl _
      | .setdata _ | .ibclr | .ob2ib | .tcdec => []) ∧
  ∀ p ∈ [(Instr.setalg 0x02, FaultCode.illegalOperand), (.ibpush 0x00, .overflow), (.rdreg 0x05, .illegalOperand),
      (.rdob 0x00, .indexError), (.rdib 0x00, .indexError), (.cenc, .notConfigured), (.cvfy, .notConfigured),
      (.cvfy, .lengthError), (.nenc, .lengthError), (.nvfy, .lengthError), (.clsfy, .notConfigured),
      (.tccand 0x05, .illegalOperand)], ∃ s, Refuses p.1 s p.2

/-- 10_state.md R41, the write sets: an operation changes nothing outside its write set. Of a written-mask it
writes its own bit alone, and IBPUSH writes no byte of `IB` below the length. -/
def Obligations.OperationsWriteOnlyTheirWriteSet : Prop :=
  ∀ i s t r, exec i s = .next t → t.rsp = some r → faulted r = false → i ≠ .srst →
    RegsKeptBut
      (match i with
      | .setalg _ => [.reg .csalg, .reg .profv]
      | .setack _ => [.reg .ackb, .reg .profv]
      | .setnack _ => [.reg .nackb, .reg .profv]
      | .setbusy _ => [.reg .busyb, .reg .profv]
      | .setua2 _ => [.reg .ua2, .reg .opndv]
      | .setbt _ => [.reg .bt, .reg .opndv]
      | .setcmd _ => [.reg .cmd, .reg .opndv]
      | .setctrl _ => [.reg .ctrl, .reg .opndv]
      | .setdata _ => [.reg .data, .reg .opndv]
      | .ibclr | .ibpush _ | .ob2ib => [.iblen]
      | .cenc | .nenc => [.oblen]
      | .cvfy | .nvfy => [.reg .vfyr]
      | .clsfy => [.reg .classr]
      | .tcdec | .tccand _ => [.reg .tcstat, .reg .tch, .reg .tcm, .reg .tcs, .reg .tcf]
      | .nop | .srst | .rdreg _ | .rdob _ | .rdib _ => []) s t ∧
    (∀ k, profvBitOf i ≠ some k → t.profv.getLsbD k = s.profv.getLsbD k) ∧
    (∀ k, opndvBitOf i ≠ some k → t.opndv.getLsbD k = s.opndv.getLsbD k) ∧
    (∀ b, i = .ibpush b → ∀ k < s.ib.length, t.ib[k]? = s.ib[k]?) ∧
    ((∀ b, i ≠ .ibpush b) → i ≠ .ibclr → i ≠ .ob2ib → t.ib = s.ib) ∧
    (i ≠ .cenc → i ≠ .nenc → t.ob = s.ob) ∧ OutsideKept s t

/-- 41_buffer_ops.md R137 (b) and (c): `IB` and its length change only by IBCLR, IBPUSH, OB2IB and SRST. -/
def Obligations.InputBufferChangesOnlyByItsOperations : Prop :=
  ∀ i s t, exec i s = .next t → t.ib ≠ s.ib →
    (i = .ibclr ∧ t.ib = []) ∨ (∃ b, i = .ibpush b ∧ t.ib = s.ib ++ [b]) ∨ (i = .ob2ib ∧ t.ib = s.ob) ∨
      (i = .srst ∧ t.ib = [])

/-- 70_reset_and_hazards.md R264: no step, a reset among them, changes the parameters. -/
def Obligations.ParametersNeverChange : Prop := ∀ s t, step s = .next t → t.params = s.params

/-! ### Control and configuration (40_config_ops.md) -/

/-- R110: NOP, its encoding, and that it changes nothing. -/
def Obligations.NopDoesNothing : Prop :=
  decode 0x0000 = .ok .nop ∧ (∀ n : Byte, n ≠ 0 → decode (0x00#8 ++ n) = .error .illegalOp) ∧
    ∀ s, Completes .nop s 0x00 fun t => RegsKeptBut [] s t ∧ BuffersKept s t

/-- R111: SRST puts every piece of state at its reset value and answers 0x0000. -/
def Obligations.SrstResetsEverything : Prop :=
  decode 0x0100 = .ok .srst ∧ (∀ n : Byte, n ≠ 0 → decode (0x01#8 ++ n) = .error .illegalOp) ∧
    ∀ s, Completes .srst s 0x00 AtReset

/-- R261: SRST has the same effect on the block's state as one cycle of `rst`, and differs only in that it
answers 0x0000. -/
def Obligations.SrstEqualsResetInput : Prop :=
  ∀ (s : State) q, ∃ t : State, step { s with inputs := .op 0x0100 :: q } = .next t ∧
    step { s with inputs := .rst :: q } = .next { t with rsp := none } ∧ t.rsp = some 0x0000 ∧ AtReset t

/-- R112: SETALG with 0x00 or 0x01 sets `CSALG` and `ALGV`; any other operand is refused. -/
def Obligations.SetalgSelectsTheAlgorithm : Prop :=
  ∀ (n : Byte) s, decode (0x10#8 ++ n) = .ok (.setalg n) ∧
    (n.toNat ≤ 1 → Completes (.setalg n) s 0x00 fun t => t.csalg = n ∧ t.profv = s.profv ||| 0x01 ∧
      RegsKeptBut [.reg .csalg, .reg .profv] s t ∧ BuffersKept s t) ∧
    (1 < n.toNat → Refuses (.setalg n) s .illegalOperand)

/-- R113, R114, R115: SETACK, SETNACK, SETBUSY write their byte, any value, and their bit of `PROFV`. -/
def Obligations.SetProfileByteWritesByteAndMask : Prop :=
  ∀ (n : Byte) s,
    (decode (0x11#8 ++ n) = .ok (.setack n) ∧ Completes (.setack n) s 0x00 fun t =>
      t.ackb = n ∧ t.profv = s.profv ||| 0x02 ∧ RegsKeptBut [.reg .ackb, .reg .profv] s t ∧ BuffersKept s t) ∧
    (decode (0x12#8 ++ n) = .ok (.setnack n) ∧ Completes (.setnack n) s 0x00 fun t =>
      t.nackb = n ∧ t.profv = s.profv ||| 0x04 ∧ RegsKeptBut [.reg .nackb, .reg .profv] s t ∧ BuffersKept s t) ∧
    (decode (0x13#8 ++ n) = .ok (.setbusy n) ∧ Completes (.setbusy n) s 0x00 fun t =>
      t.busyb = n ∧ t.profv = s.profv ||| 0x08 ∧ RegsKeptBut [.reg .busyb, .reg .profv] s t ∧ BuffersKept s t)

/-- R116 to R120: the five operand operations write their byte, any value, and their bit of `OPNDV`. -/
def Obligations.SetOperandByteWritesByteAndMask : Prop :=
  ∀ (n : Byte) s,
    (decode (0x20#8 ++ n) = .ok (.setua2 n) ∧ Completes (.setua2 n) s 0x00 fun t =>
      t.ua2 = n ∧ t.opndv = s.opndv ||| 0x01 ∧ RegsKeptBut [.reg .ua2, .reg .opndv] s t ∧ BuffersKept s t) ∧
    (decode (0x21#8 ++ n) = .ok (.setbt n) ∧ Completes (.setbt n) s 0x00 fun t =>
      t.bt = n ∧ t.opndv = s.opndv ||| 0x02 ∧ RegsKeptBut [.reg .bt, .reg .opndv] s t ∧ BuffersKept s t) ∧
    (decode (0x22#8 ++ n) = .ok (.setcmd n) ∧ Completes (.setcmd n) s 0x00 fun t =>
      t.cmd = n ∧ t.opndv = s.opndv ||| 0x04 ∧ RegsKeptBut [.reg .cmd, .reg .opndv] s t ∧ BuffersKept s t) ∧
    (decode (0x23#8 ++ n) = .ok (.setctrl n) ∧ Completes (.setctrl n) s 0x00 fun t =>
      t.ctrl = n ∧ t.opndv = s.opndv ||| 0x08 ∧ RegsKeptBut [.reg .ctrl, .reg .opndv] s t ∧ BuffersKept s t) ∧
    (decode (0x24#8 ++ n) = .ok (.setdata n) ∧ Completes (.setdata n) s 0x00 fun t =>
      t.data = n ∧ t.opndv = s.opndv ||| 0x10 ∧ RegsKeptBut [.reg .data, .reg .opndv] s t ∧ BuffersKept s t)

/-! ### Buffers and read-backs (41_buffer_ops.md) -/

/-- R130: IBCLR empties `IB` and changes nothing else. -/
def Obligations.IbclrEmptiesTheInputBuffer : Prop :=
  decode 0x3000 = .ok .ibclr ∧
    ∀ s, Completes .ibclr s 0x00 fun t => t.ib = [] ∧ t.read .iblen = 0x00 ∧ t.ob = s.ob ∧ RegsKeptBut [.iblen] s t

/-- R131: IBPUSH appends its byte and answers the new length; with `IBCAP` bytes held it is refused with
Overflow and the byte is dropped. -/
def Obligations.IbpushAppendsOrOverflows : Prop :=
  ∀ (n : Byte) s, decode (0x31#8 ++ n) = .ok (.ibpush n) ∧
    (s.ib.length < s.params.ibcap → Completes (.ibpush n) s (BitVec.ofNat 8 (s.ib.length + 1)) fun t =>
      t.ib = s.ib ++ [n] ∧ t.read .iblen = BitVec.ofNat 8 (s.ib.length + 1) ∧ t.ob = s.ob ∧ RegsKeptBut [.iblen] s t) ∧
    (s.ib.length = s.params.ibcap → Refuses (.ibpush n) s .overflow)

/-- R132: OB2IB replaces the whole content of `IB` by that of `OB` and answers the new length. -/
def Obligations.Ob2ibCopiesTheOutputBuffer : Prop :=
  decode 0x3200 = .ok .ob2ib ∧
    ∀ s, Completes .ob2ib s (BitVec.ofNat 8 s.ob.length) fun t =>
      t.ib = s.ob ∧ t.read .iblen = s.read .oblen ∧ t.ob = s.ob ∧ RegsKeptBut [.iblen] s t

/-- 10_state.md R22: the numbers of the 21 registers; every other number names no register. -/
def Obligations.RegisterNumbersOfTheMap : Prop :=
  (∀ r, regOfNumber (regNumber r) = some r) ∧
  (∀ n, regOfNumber n = none ↔ (0x05 ≤ n ∧ n ≤ 0x07) ∨ n = 0x0E ∨ n = 0x0F ∨ (0x12 ≤ n ∧ n ≤ 0x17) ∨ 0x20 ≤ n) ∧
  [RegSel.reg .profv, .reg .csalg, .reg .ackb, .reg .nackb, .reg .busyb].map regNumber = [0x00, 0x01, 0x02, 0x03, 0x04] ∧
  [RegSel.reg .opndv, .reg .ua2, .reg .bt, .reg .cmd, .reg .ctrl, .reg .data].map regNumber =
    [0x08, 0x09, 0x0A, 0x0B, 0x0C, 0x0D] ∧
  [RegSel.iblen, .oblen].map regNumber = [0x10, 0x11] ∧
  [RegSel.reg .vfyr, .reg .classr, .reg .tcstat, .reg .tch, .reg .tcm, .reg .tcs, .reg .tcf, .reg .flt].map regNumber =
    [0x18, 0x19, 0x1A, 0x1B, 0x1C, 0x1D, 0x1E, 0x1F]

/-- R134: RDREG answers the register of its number and changes no state; a number that names no register
is refused. -/
def Obligations.RdregAnswersTheRegister : Prop :=
  ∀ s, (∀ n : Byte, decode (0x70#8 ++ n) = .ok (.rdreg n)) ∧
    (∀ r, Completes (.rdreg (regNumber r)) s (s.read r) fun t => RegsKeptBut [] s t ∧ BuffersKept s t) ∧
    ∀ n, (∀ r, regNumber r ≠ n) → Refuses (.rdreg n) s .illegalOperand

/-- R135: RDOB answers the byte at its index and changes no state; at or past `OBLEN` it is refused. -/
def Obligations.RdobAnswersTheOutputByte : Prop :=
  ∀ (n : Byte) s, decode (0x71#8 ++ n) = .ok (.rdob n) ∧
    (∀ h : n.toNat < s.ob.length, Completes (.rdob n) s s.ob[n.toNat] fun t => RegsKeptBut [] s t ∧ BuffersKept s t) ∧
    (s.ob.length ≤ n.toNat → Refuses (.rdob n) s .indexError)

/-- R136: RDIB answers the byte at its index and changes no state; at or past `IBLEN` it is refused. -/
def Obligations.RdibAnswersTheInputByte : Prop :=
  ∀ (n : Byte) s, decode (0x72#8 ++ n) = .ok (.rdib n) ∧
    (∀ h : n.toNat < s.ib.length, Completes (.rdib n) s s.ib[n.toNat] fun t => RegsKeptBut [] s t ∧ BuffersKept s t) ∧
    (s.ib.length ≤ n.toNat → Refuses (.rdib n) s .indexError)

/-- R137 (a): after `IBLOAD b0 ... bk` with `k + 1 <= IBCAP` the length is `k + 1` and `RDIB i` answers `bi`. -/
def Obligations.IbloadThenRdibAnswersTheBytes : Prop :=
  ∀ s bytes, bytes.length ≤ s.params.ibcap → s.params.Legal →
    ∃ rs t, answers (expand (.ibload bytes)) s = some (rs, t) ∧ (∀ r ∈ rs, faulted r = false) ∧
      t.read .iblen = BitVec.ofNat 8 bytes.length ∧
      ∀ (i : Nat) (h : i < bytes.length), Completes (.rdib (BitVec.ofNat 8 i)) t bytes[i] fun u => u.ib = bytes

/-- R137 (d): the read-backs are idempotent and commute: one gives the same answer after another as before
it, and again after itself. -/
def Obligations.ReadBacksCommute : Prop :=
  ∀ i j s t u r q, (∃ n, i = .rdreg n ∨ i = .rdob n ∨ i = .rdib n) → (∃ n, j = .rdreg n ∨ j = .rdob n ∨ j = .rdib n) →
    exec i s = .next t → t.rsp = some r → faulted r = false → exec j s = .next u → u.rsp = some q → faulted q = false →
    exec j t = .next u ∧ exec i u = .next t ∧ exec i t = .next t

/-! ### Cart-robot codec (42_cart_codec.md) -/

/-- R155 (with R95, R151, R152): CENC builds the nine bytes of the frame from the five operand registers,
under the selected checksum, and answers the checksum; unless all six registers have been written it is
refused. -/
def Obligations.CencBuildsTheFrame : Prop :=
  decode 0x4000 = .ok .cenc ∧ ∀ s,
    (s.profv.getLsbD 0 = true ∧ s.opndv.extractLsb' 0 5 = 0b11111#5 → ∃ cs : Byte,
      (s.csalg.getLsbD 0 = false → cs.toNat = (0x100 - (0x06 + 0x01 + s.ua2.toNat + s.bt.toNat + s.cmd.toNat +
        s.ctrl.toNat + s.data.toNat) % 0x100) % 0x100) ∧
      (s.csalg.getLsbD 0 = true → cs = 0x06 ^^^ 0x01 ^^^ s.ua2 ^^^ s.bt ^^^ s.cmd ^^^ s.ctrl ^^^ s.data) ∧
      Completes .cenc s cs fun t => t.ob = [0x02, 0x06, 0x01, s.ua2, s.bt, s.cmd, s.ctrl, s.data, cs] ∧
        t.read .oblen = 0x09 ∧ t.ib = s.ib ∧ RegsKeptBut [.oblen] s t) ∧
    (s.profv.getLsbD 0 = false ∨ s.opndv.extractLsb' 0 5 ≠ 0b11111#5 → Refuses .cenc s .notConfigured)

/-- R157 (with R156): CVFY compares byte 8 of a nine-byte `IB` with the selected checksum of bytes 1 to 7;
NotConfigured is tested before the length. -/
def Obligations.CvfyChecksTheNinthByte : Prop :=
  decode 0x4100 = .ok .cvfy ∧ ∀ s,
    (s.profv.getLsbD 0 = false → Refuses .cvfy s .notConfigured) ∧
    (s.profv.getLsbD 0 = true → s.ib.length ≠ 9 → Refuses .cvfy s .lengthError) ∧
    ∀ f0 f1 f2 f3 f4 f5 f6 f7 f8 : Byte, s.profv.getLsbD 0 = true → s.ib = [f0, f1, f2, f3, f4, f5, f6, f7, f8] →
      ∃ ok : Bool,
        (s.csalg.getLsbD 0 = false → (ok = true ↔ f8.toNat =
          (0x100 - (f1.toNat + f2.toNat + f3.toNat + f4.toNat + f5.toNat + f6.toNat + f7.toNat) % 0x100) % 0x100)) ∧
        (s.csalg.getLsbD 0 = true → (ok = true ↔ f8 = f1 ^^^ f2 ^^^ f3 ^^^ f4 ^^^ f5 ^^^ f6 ^^^ f7)) ∧
        Completes .cvfy s (if ok then 0x01 else 0x00) fun t => t.vfyr = (if ok then 0x81 else 0x80) ∧
          RegsKeptBut [.reg .vfyr] s t ∧ BuffersKept s t

/-- R158: every frame built verifies under its algorithm; CENC, OB2IB, CVFY answers the checksum, the length
9, and 0x0001, from every state with the algorithm and the five operands written. -/
def Obligations.CartRoundTripVerifies : Prop :=
  (∀ alg ua2 bt cmd ctrl data, cartOk alg (cartFrame alg ua2 bt cmd ctrl data) = true) ∧
  ∀ s, s.profv.getLsbD 0 = true → s.opndv = 0x1F → ∃ cs : Byte, ∃ t,
    answers [.cenc, .ob2ib, .cvfy] s = some ([0x00#8 ++ cs, 0x0009, 0x0001], t) ∧ t.vfyr = 0x81 ∧ t.flt = s.flt

/-- R159 (a), (b): a frame verifies under TWOS exactly when bytes 1 to 8 sum to a multiple of 256, and under
XOR exactly when their exclusive or is zero. -/
def Obligations.CartFrameVerifiesIffSumIsZero : Prop :=
  ∀ f0 f1 f2 f3 f4 f5 f6 f7 f8 : Byte,
    (cartOk .twos [f0, f1, f2, f3, f4, f5, f6, f7, f8] = true ↔
      (f1.toNat + f2.toNat + f3.toNat + f4.toNat + f5.toNat + f6.toNat + f7.toNat + f8.toNat) % 256 = 0) ∧
    (cartOk .xor [f0, f1, f2, f3, f4, f5, f6, f7, f8] = true ↔ f1 ^^^ f2 ^^^ f3 ^^^ f4 ^^^ f5 ^^^ f6 ^^^ f7 ^^^ f8 = 0)

/-- R159 (d): changing any single one of bytes 1 to 8 of a verifying frame makes it fail, under either
algorithm; changing byte 0 never does. -/
def Obligations.SingleByteChangeBreaksTheFrame : Prop :=
  ∀ alg f (k : Nat) (b : Byte), f.length = 9 → cartOk alg f = true → k < 9 →
    (k = 0 → cartOk alg (f.set k b) = true) ∧ (1 ≤ k → f[k]? ≠ some b → cartOk alg (f.set k b) = false)

/-! ### Nine-pin codec (43_ninepin_codec.md) -/

/-- R173 (with R170, R172): NENC appends the exclusive or of the two or three bytes in `IB`; any other length
is refused. -/
def Obligations.NencBuildsThePacket : Prop :=
  decode 0x4800 = .ok .nenc ∧ ∀ s,
    (∀ a b : Byte, s.ib = [a, b] → Completes .nenc s (a ^^^ b) fun t =>
      t.ob = [a, b, a ^^^ b] ∧ t.read .oblen = 0x03 ∧ t.ib = s.ib ∧ RegsKeptBut [.oblen] s t) ∧
    (∀ a b c : Byte, s.ib = [a, b, c] → Completes .nenc s (a ^^^ b ^^^ c) fun t =>
      t.ob = [a, b, c, a ^^^ b ^^^ c] ∧ t.read .oblen = 0x04 ∧ t.ib = s.ib ∧ RegsKeptBut [.oblen] s t) ∧
    (s.ib.length ≠ 2 → s.ib.length ≠ 3 → Refuses .nenc s .lengthError)

/-- R175 (with R172): NVFY compares the last of three or four bytes with the exclusive or of the others; any
other length is refused. -/
def Obligations.NvfyChecksTheLastByte : Prop :=
  decode 0x4900 = .ok .nvfy ∧ ∀ s,
    (∀ a b c : Byte, s.ib = [a, b, c] → Completes .nvfy s (if c = a ^^^ b then 0x01 else 0x00) fun t =>
      t.vfyr = (if c = a ^^^ b then 0x81 else 0x80) ∧ RegsKeptBut [.reg .vfyr] s t ∧ BuffersKept s t) ∧
    (∀ a b c d : Byte, s.ib = [a, b, c, d] → Completes .nvfy s (if d = a ^^^ b ^^^ c then 0x01 else 0x00) fun t =>
      t.vfyr = (if d = a ^^^ b ^^^ c then 0x81 else 0x80) ∧ RegsKeptBut [.reg .vfyr] s t ∧ BuffersKept s t) ∧
    (s.ib.length ≠ 3 → s.ib.length ≠ 4 → Refuses .nvfy s .lengthError)

/-- R176: every packet built verifies, and `IBLOAD P`, NENC, OB2IB, NVFY ends with the answer 0x0001, for
every `P` of two or three bytes. -/
def Obligations.NinePinRoundTripVerifies : Prop :=
  (∀ p, (p.length = 2 ∨ p.length = 3) → npOk (npPacket p) = true) ∧
  ∀ s p, (p.length = 2 ∨ p.length = 3) → s.params.Legal → ∃ rs t,
    answers (expand (.ibload p) ++ [.nenc, .ob2ib, .nvfy]) s = some (rs, t) ∧ rs.getLast? = some 0x0001 ∧
      (∀ r ∈ rs, faulted r = false) ∧ t.vfyr = 0x81

/-- R171 (and, for TCDEC, R214): the nine-pin operations and TCDEC read no profile or operand register: from two states that
differ in those alone they give the same response and the same buffers and results. -/
def Obligations.NinePinReadsNoProfile : Prop :=
  ∀ i s (r : Reg) v, i = .nenc ∨ i = .nvfy ∨ i = .tcdec →
    r ∈ [Reg.profv, .csalg, .ackb, .nackb, .busyb, .opndv, .ua2, .bt, .cmd, .ctrl, .data] →
    ∃ t, exec i s = .next t ∧ exec i (s.writeReg r v) = .next (t.writeReg r v) ∧ t.rsp ≠ some (rspFault .notConfigured)

/-! ### Classifier (44_classifier.md) -/

/-- R187 (with R186): CLSFY answers the class of the first byte of `IB`, tested against ACK, NACK and BUSY in
that order; unless all three have been written it is refused. -/
def Obligations.ClsfyAnswersTheClass : Prop :=
  decode 0x5000 = .ok .clsfy ∧ ∀ s,
    (s.profv.extractLsb' 1 3 ≠ 0b111#3 → Refuses .clsfy s .notConfigured) ∧
    (s.profv.extractLsb' 1 3 = 0b111#3 → ∃ c : Byte,
      c = (match s.ib with
        | [] => 0
        | b :: _ => if b = s.ackb then 1 else if b = s.nackb then 2 else if b = s.busyb then 3 else 4) ∧
      Completes .clsfy s c fun t => t.classr = 0x80 + c ∧ RegsKeptBut [.reg .classr] s t ∧ BuffersKept s t)

/-- R191: the class is Empty exactly when there is no byte, and Data exactly when there is one and the first
differs from all three profile bytes. -/
def Obligations.ClassifyEmptyAndDataExactly : Prop :=
  ∀ raw a n b,
    (classCode (classify raw a n b) = 0 ↔ raw.length = 0) ∧
    (classCode (classify raw a n b) = 4 ↔ ∃ x xs, raw = x :: xs ∧ x ≠ a ∧ x ≠ n ∧ x ≠ b) ∧
    (classCode (classify raw a n b)).toNat ≤ 4

/-- R190: when two profile bytes are equal the earlier test wins, and the later class never results: for each
of the three pairs, ACK and NACK, NACK and BUSY, ACK and BUSY. -/
def Obligations.EqualProfileBytesEarlierTestWins : Prop :=
  ∀ x xs a b,
    (x = a → classify (x :: xs) a a b = .ack) ∧ (∀ raw, classify raw a a b ≠ .nack) ∧
    (x = b → b ≠ a → classify (x :: xs) a b b = .nack) ∧ (∀ raw, classify raw a b b ≠ .busy) ∧
    (x = a → classify (x :: xs) a b a = .ack) ∧ ∀ raw, classify raw a b a ≠ .busy

/-! ### Timecode decoder (45_timecode.md) -/

/-- R203, R207 in byte terms: the fields that candidates 1 and 4 take from the first three bytes, whatever
`BCD_STRICT` is; bit 7 of the byte that holds the hours is not read, and nothing is yielded from fewer than
three bytes. -/
def Obligations.PackedCandidateFields : Prop :=
  ∀ strict,
    (∀ b0 b1 b2 : Byte, ∀ rest,
      candidateValue strict .packed (b0 :: b1 :: b2 :: rest) = some ⟨b0.toNat / 4 % 32, b0.toNat % 4 * 16 + b1.toNat / 16,
        b1.toNat % 16 * 4 + b2.toNat / 64, b2.toNat % 64⟩ ∧
      candidateValue strict .reversed (b0 :: b1 :: b2 :: rest) = some ⟨b2.toNat / 4 % 32,
        b2.toNat % 4 * 16 + b1.toNat / 16, b1.toNat % 16 * 4 + b0.toNat / 64, b0.toNat % 64⟩) ∧
    ∀ b, b.length < 3 → candidateValue strict .packed b = none ∧ candidateValue strict .reversed b = none

/-- R204, R205, R206: the fields that candidates 2 and 3 take from the first four bytes, and the digit check
of `BCD_STRICT`, which candidate 3 does not have; nothing is yielded from fewer than four bytes. -/
def Obligations.FourByteCandidateFields : Prop :=
  ∀ strict,
    (∀ b0 b1 b2 b3 : Byte, ∀ rest,
      candidateValue strict .bcd (b0 :: b1 :: b2 :: b3 :: rest) =
        (if strict = true ∧ ∃ b ∈ [b0, b1, b2, b3], 9 < b.toNat / 16 ∨ 9 < b.toNat % 16 then none
          else some ⟨b0.toNat / 16 * 10 + b0.toNat % 16, b1.toNat / 16 * 10 + b1.toNat % 16,
            b2.toNat / 16 * 10 + b2.toNat % 16, b3.toNat / 16 * 10 + b3.toNat % 16⟩) ∧
      candidateValue strict .binary (b0 :: b1 :: b2 :: b3 :: rest) = some ⟨b0.toNat, b1.toNat, b2.toNat, b3.toNat⟩) ∧
    ∀ b, b.length < 4 → candidateValue strict .bcd b = none ∧ candidateValue strict .binary b = none

/-- R214 (with R208 to R211): TCDEC follows the screen and then the candidates in their order; it answers the
new `TCSTAT` and writes the time of the first that passes, or zeros; it is never refused. -/
def Obligations.TcdecFollowsTheChain : Prop :=
  decode 0x6000 = .ok .tcdec ∧ ∀ s, ∃ st : Byte, ∃ v : TimeValue,
    Completes .tcdec s st (fun t => t.tcstat = st ∧ t.tch.toNat = v.h ∧ t.tcm.toNat = v.m ∧ t.tcs.toNat = v.s ∧
      t.tcf.toNat = v.f ∧ RegsKeptBut [.reg .tcstat, .reg .tch, .reg .tcm, .reg .tcs, .reg .tcf] s t ∧ BuffersKept s t) ∧
    let pass k w := candidateValue s.params.bcdStrict k s.ib = some w ∧ w.h ≤ 23 ∧ w.m ≤ 59 ∧ w.s ≤ 59 ∧ w.f ≤ 29
    let screen := (∀ x ∈ s.ib, x = 0x00) ∨ (∀ x ∈ s.ib, x = 0xFF) ∨ s.ib.head? = some 0x91
    (screen ∧ st = 0x88 ∧ v = ⟨0, 0, 0, 0⟩) ∨
    (¬screen ∧ pass .packed v ∧ st = 0x81) ∨
    (¬screen ∧ (¬∃ w, pass .packed w) ∧ pass .bcd v ∧ st = 0x83) ∨
    (¬screen ∧ (¬∃ w, pass .packed w) ∧ (¬∃ w, pass .bcd w) ∧ pass .binary v ∧ st = 0x85) ∨
    (¬screen ∧ (¬∃ w, pass .packed w) ∧ (¬∃ w, pass .bcd w) ∧ (¬∃ w, pass .binary w) ∧ pass .reversed v ∧ st = 0x87) ∨
    (¬screen ∧ (¬∃ w k, pass k w) ∧ st = 0x80 ∧ v = ⟨0, 0, 0, 0⟩)

/-- R216: TCCAND runs one candidate alone, without the screen; a number outside 1 to 4 is refused. -/
def Obligations.TccandRunsOneCandidate : Prop :=
  ∀ (n : Byte) s, decode (0x61#8 ++ n) = .ok (.tccand n) ∧
    (n.toNat < 1 ∨ 4 < n.toNat → Refuses (.tccand n) s .illegalOperand) ∧
    ∀ k, (n, k) ∈ [(0x01#8, Candidate.packed), (0x02#8, .bcd), (0x03#8, .binary), (0x04#8, .reversed)] →
      ∃ st : Byte, ∃ v : TimeValue,
        Completes (.tccand n) s st (fun t => t.tcstat = st ∧ t.tch.toNat = v.h ∧ t.tcm.toNat = v.m ∧ t.tcs.toNat = v.s ∧
          t.tcf.toNat = v.f ∧ RegsKeptBut [.reg .tcstat, .reg .tch, .reg .tcm, .reg .tcs, .reg .tcf] s t ∧
          BuffersKept s t) ∧
        let pass w := candidateValue s.params.bcdStrict k s.ib = some w ∧ w.h ≤ 23 ∧ w.m ≤ 59 ∧ w.s ≤ 59 ∧ w.f ≤ 29
        (pass v ∧ st = 0x81 + 2 * (n - 1)) ∨ ((¬∃ w, pass w) ∧ st = 0x80 ∧ v = ⟨0, 0, 0, 0⟩)

/-- R217: TCDEC answers 0x0088 exactly on an all-zero, an all-0xFF or a leading-0x91 response, at any length,
and the time registers are then 0x00. -/
def Obligations.SentinelAnswersExactly : Prop :=
  ∀ s, ∃ t, exec .tcdec s = .next t ∧
    (t.rsp = some 0x0088 ↔
      (∃ n, s.ib = List.replicate n 0x00) ∨ (∃ n, s.ib = List.replicate n 0xFF) ∨ ∃ rest, s.ib = 0x91 :: rest) ∧
    (t.rsp = some 0x0088 → t.tch = 0 ∧ t.tcm = 0 ∧ t.tcs = 0 ∧ t.tcf = 0)

/-- R218: each candidate alone recovers 12:34:56:07 from its own encoding and rejects its own encoding of
24:00:00:00. -/
def Obligations.CandidatesRecoverTheSpecTime : Prop :=
  ∀ row ∈ [((0x01 : Byte), ([0x32, 0x2E, 0x07] : Buffer), (0x0081 : RspWord), ([0x60, 0x00, 0x00] : Buffer)),
      (0x02, [0x12, 0x34, 0x56, 0x07], 0x0083, [0x24, 0x00, 0x00, 0x00]),
      (0x03, [0x0C, 0x22, 0x38, 0x07], 0x0085, [0x18, 0x00, 0x00, 0x00]),
      (0x04, [0x07, 0x2E, 0x32], 0x0087, [0x00, 0x00, 0x60])],
    ∀ s : State,
      (s.ib = row.2.1 → ∃ t, exec (.tccand row.1) s = .next t ∧ t.rsp = some row.2.2.1 ∧
        t.tch = 0x0C ∧ t.tcm = 0x22 ∧ t.tcs = 0x38 ∧ t.tcf = 0x07) ∧
      (s.ib = row.2.2.2 → ∃ t, exec (.tccand row.1) s = .next t ∧ t.rsp = some 0x0080)

/-- R219 (c): with `BCD_STRICT` = false candidate 3 never wins the chain, so TCDEC never answers 0x0085. -/
def Obligations.BinaryNeverWinsUnlessStrict : Prop :=
  ∀ s t, s.params.bcdStrict = false → exec .tcdec s = .next t → t.rsp ≠ some 0x0085 ∧ t.tcstat ≠ 0x85

/-- R210, R216 (95_test_vectors.md law 15): when the chain finds a time by candidate `k`, TCCAND `k` gives the
same answer and leaves the same state. -/
def Obligations.ChainWinnerAgreesWithTccand : Prop :=
  ∀ s t (k : Nat), 1 ≤ k → k ≤ 4 → exec .tcdec s = .next t → t.tcstat = BitVec.ofNat 8 (0x81 + 2 * (k - 1)) →
    exec (.tccand (BitVec.ofNat 8 k)) s = .next t

/-! ### The port (30_encoding.md R81, 70_reset_and_hazards.md R260, R262) and the assembler -/

/-- R260: at an edge with `rst` = 1 every piece of state takes its reset value, nothing is ready, answered or
accepted, and the first operation can be accepted at the first edge with `rst` = 0. -/
def Obligations.ResetInputResetsTheDevice : Prop :=
  ∀ p d, p.rst = true →
    AtReset (clockEdge p d).block ∧ (clockEdge p d).block.params = d.block.params ∧
    opReady p d = false ∧ rspOut p d = none ∧ acceptsAt p d = false ∧
    ∀ q, q.rst = false → q.opValid = true → acceptsAt q (clockEdge p d) = true

/-- R262: an operation in progress when `rst` is asserted gives no response, at that edge or later, until
another is accepted, and leaves nothing it had written. -/
def Obligations.ResetAbandonsTheOperation : Prop :=
  ∀ p d w n, p.rst = true → d.phase = .busy w n →
    rspOut p d = none ∧ AtReset (clockEdge p d).block ∧
    ∀ (qs : List Pins) q, (∀ x ∈ qs, x.opValid = false) →
      rspOut q (clockEdges (clockEdge p d) qs) = none ∧ AtReset (clockEdges (clockEdge p d) qs).block

/-- R81, R82: an operation accepted at one edge is answered after finitely many more, at least one, whatever
its latency: until then the port is not ready and no response is valid; then its response stands for one
cycle, and in the next the port is ready. -/
def Obligations.AcceptedOperationIsAnsweredOnce : Prop :=
  ∀ p d, p.rst = false → acceptsAt p d = true →
    ∃ n, ∀ qs : List Pins, (∀ x ∈ qs, x.rst = false) → ∀ q, q.rst = false →
      (qs.length < n → opReady q (clockEdges (clockEdge p d) qs) = false ∧ rspOut q (clockEdges (clockEdge p d) qs) = none) ∧
      (qs.length = n → ∃ t r, acceptWord p.opWord d.block = .next t ∧ t.rsp = some r ∧
        (clockEdges (clockEdge p d) qs).block = t ∧ rspOut q (clockEdges (clockEdge p d) qs) = some r ∧
        opReady q (clockEdges (clockEdge p d) qs) = false) ∧
      (qs.length = n + 1 → opReady q (clockEdges (clockEdge p d) qs) = true ∧
        rspOut q (clockEdges (clockEdge p d) qs) = none)

/-- R104: the exact expansion of each pseudo-operation. -/
def Obligations.PseudoOperationsExpand : Prop :=
  (∀ a k n b, expand (.profile a k n b) = [.setalg a, .setack k, .setnack n, .setbusy b]) ∧
  (∀ u b c k x, expand (.cartops u b c k x) = [.setua2 u, .setbt b, .setcmd c, .setctrl k, .setdata x]) ∧
  expand (.ibload []) = [.ibclr] ∧ (∀ bs b, expand (.ibload (bs ++ [b])) = expand (.ibload bs) ++ [.ibpush b]) ∧
  expand (.rdpkt 1) = [.rdob 0] ∧
  (∀ n, 1 ≤ n → n ≤ 8 → expand (.rdpkt (n + 1)) = expand (.rdpkt n) ++ [.rdob (BitVec.ofNat 8 n)]) ∧
  expand .rdtc = [.rdreg 0x1A, .rdreg 0x1B, .rdreg 0x1C, .rdreg 0x1D, .rdreg 0x1E] ∧ expand .loopback = [.ob2ib]

/-- R103: the examples of the textual form, and a comment. -/
def Obligations.AssemblerExamples : Prop :=
  (assembleLine "CENC".toList).map encode = some 0x4000 ∧ (assembleLine "SETACK 0x04".toList).map encode = some 0x1104 ∧
    (assembleLine "RDREG 0x1A".toList).map encode = some 0x701A ∧ (assembleLine "TCCAND 2".toList).map encode = some 0x6102 ∧
    assembleLine "RDREG TCSTAT".toList = some (.rdreg 0x1A) ∧ assembleLine "SETALG XOR ; select".toList = some (.setalg 0x01) ∧
    assembleLine "SETALG TWOS".toList = some (.setalg 0x00) ∧ assembleLine "SETACK 256".toList = none ∧
    assembleLine "cenc".toList = none
end

