-- ==== Sys2Proof/Laws/Decode.lean ====
section
/-! SUPPORT. The fields of an operation word put together and taken apart, and the decoder on them. -/

namespace Sys2Proof

theorem shifted_or_byte (a b : Byte) : a.toNat * 256 ||| b.toNat = a.toNat * 256 + b.toNat := by
  have h := Nat.shiftLeft_add_eq_or_of_lt b.isLt a.toNat
  rw [Nat.shiftLeft_eq] at h
  exact h.symm

/-- The number a word of two bytes spells. -/
theorem toNat_append (a b : Byte) : BitVec.toNat (w := 16) (a ++ b) = a.toNat * 256 + b.toNat := by
  have h : BitVec.toNat (w := 8 + 8) (a ++ b) = a.toNat <<< 8 ||| b.toNat := BitVec.toNat_append a b
  rw [Nat.shiftLeft_eq] at h
  exact h.trans (shifted_or_byte a b)

theorem toNat_opc (w : OpWord) : (opc w).toNat = w.toNat / 256 := by
  simp only [opc, BitVec.extractLsb'_toNat, Nat.shiftRight_eq_div_pow]
  omega

theorem toNat_imm8Of (w : OpWord) : (imm8Of w).toNat = w.toNat % 256 := by
  simp [imm8Of, BitVec.extractLsb'_toNat]

@[simp] theorem opc_append (a b : Byte) : opc (a ++ b) = a := by
  apply BitVec.eq_of_toNat_eq
  rw [toNat_opc, toNat_append]
  omega

@[simp] theorem imm8Of_append (a b : Byte) : imm8Of (a ++ b) = b := by
  apply BitVec.eq_of_toNat_eq
  rw [toNat_imm8Of, toNat_append]
  omega

/-- A word is its two fields (R80). -/
theorem word_eq_append (w : OpWord) : w = opc w ++ imm8Of w := by
  apply BitVec.eq_of_toNat_eq
  rw [toNat_append, toNat_opc, toNat_imm8Of]
  omega

/-- The decoder on a word given by its fields. -/
@[simp] theorem decode_append (a b : Byte) : decode (a ++ b) = decodeParts a b := by simp [decode]

/-- A word of a mask 0xFF00 row is its opcode byte and its operand (R86). -/
theorem withOperand_eq_append (a b : Byte) : withOperand (a ++ 0x00#8) b = a ++ b := by
  apply BitVec.eq_of_toNat_eq
  have hb : b.toNat % 65536 = b.toNat := Nat.mod_eq_of_lt (by omega)
  rw [withOperand, BitVec.toNat_or, toNat_append, toNat_append]
  simpa [hb] using shifted_or_byte a b

/-- The `opc` column of R86. -/
def Instr.opcByte : Instr → Byte
  | .nop => 0x00
  | .srst => 0x01
  | .setalg _ => 0x10
  | .setack _ => 0x11
  | .setnack _ => 0x12
  | .setbusy _ => 0x13
  | .setua2 _ => 0x20
  | .setbt _ => 0x21
  | .setcmd _ => 0x22
  | .setctrl _ => 0x23
  | .setdata _ => 0x24
  | .ibclr => 0x30
  | .ibpush _ => 0x31
  | .ob2ib => 0x32
  | .cenc => 0x40
  | .cvfy => 0x41
  | .nenc => 0x48
  | .nvfy => 0x49
  | .clsfy => 0x50
  | .tcdec => 0x60
  | .tccand _ => 0x61
  | .rdreg _ => 0x70
  | .rdob _ => 0x71
  | .rdib _ => 0x72

/-- An operation's word is its opcode byte and its operand, 0x00 where it has none (R80, R86). -/
theorem encode_eq_append (i : Instr) : encode i = i.opcByte ++ i.operand.getD 0x00 := by
  cases i with
  | setalg imm => exact withOperand_eq_append 0x10 imm
  | setack imm => exact withOperand_eq_append 0x11 imm
  | setnack imm => exact withOperand_eq_append 0x12 imm
  | setbusy imm => exact withOperand_eq_append 0x13 imm
  | setua2 imm => exact withOperand_eq_append 0x20 imm
  | setbt imm => exact withOperand_eq_append 0x21 imm
  | setcmd imm => exact withOperand_eq_append 0x22 imm
  | setctrl imm => exact withOperand_eq_append 0x23 imm
  | setdata imm => exact withOperand_eq_append 0x24 imm
  | ibpush imm => exact withOperand_eq_append 0x31 imm
  | tccand imm => exact withOperand_eq_append 0x61 imm
  | rdreg imm => exact withOperand_eq_append 0x70 imm
  | rdob imm => exact withOperand_eq_append 0x71 imm
  | rdib imm => exact withOperand_eq_append 0x72 imm
  | _ => rfl

/-- The no-operand rows admit the operand byte 0x00 alone (R87). -/
@[simp] theorem noOperand_zero (i : Instr) : noOperand i 0x00 = .ok i := by simp [noOperand]

theorem noOperand_ok (i j : Instr) (b : Byte) : noOperand i b = .ok j ↔ b = 0x00 ∧ i = j := by
  unfold noOperand
  split <;> simp_all

end Sys2Proof
end

