-- ==== Sys2Proof/Laws/State.lean ====
section
/-! SUPPORT. The small lemmas of the state's updates: one a field and an update. -/

namespace Sys2Proof.Machine

/-! ### `readReg` -/

@[simp] theorem readReg_profv (s : State) : s.readReg .profv = s.profv := rfl
@[simp] theorem readReg_csalg (s : State) : s.readReg .csalg = s.csalg := rfl
@[simp] theorem readReg_ackb (s : State) : s.readReg .ackb = s.ackb := rfl
@[simp] theorem readReg_nackb (s : State) : s.readReg .nackb = s.nackb := rfl
@[simp] theorem readReg_busyb (s : State) : s.readReg .busyb = s.busyb := rfl
@[simp] theorem readReg_opndv (s : State) : s.readReg .opndv = s.opndv := rfl
@[simp] theorem readReg_ua2 (s : State) : s.readReg .ua2 = s.ua2 := rfl
@[simp] theorem readReg_bt (s : State) : s.readReg .bt = s.bt := rfl
@[simp] theorem readReg_cmd (s : State) : s.readReg .cmd = s.cmd := rfl
@[simp] theorem readReg_ctrl (s : State) : s.readReg .ctrl = s.ctrl := rfl
@[simp] theorem readReg_data (s : State) : s.readReg .data = s.data := rfl
@[simp] theorem readReg_vfyr (s : State) : s.readReg .vfyr = s.vfyr := rfl
@[simp] theorem readReg_classr (s : State) : s.readReg .classr = s.classr := rfl
@[simp] theorem readReg_tcstat (s : State) : s.readReg .tcstat = s.tcstat := rfl
@[simp] theorem readReg_tch (s : State) : s.readReg .tch = s.tch := rfl
@[simp] theorem readReg_tcm (s : State) : s.readReg .tcm = s.tcm := rfl
@[simp] theorem readReg_tcs (s : State) : s.readReg .tcs = s.tcs := rfl
@[simp] theorem readReg_tcf (s : State) : s.readReg .tcf = s.tcf := rfl
@[simp] theorem readReg_flt (s : State) : s.readReg .flt = s.flt := rfl

/-! ### `writeReg` -/

@[simp] theorem readReg_writeReg (s : State) (r q : Reg) (v : Byte) :
    (s.writeReg r v).readReg q = if q = r then v else s.readReg q := by
  cases r <;> cases q <;> rfl

@[simp] theorem writeReg_profv (s : State) (r : Reg) (v : Byte) :
    (s.writeReg r v).profv = if r = .profv then v else s.profv := by cases r <;> rfl
@[simp] theorem writeReg_csalg (s : State) (r : Reg) (v : Byte) :
    (s.writeReg r v).csalg = if r = .csalg then v else s.csalg := by cases r <;> rfl
@[simp] theorem writeReg_ackb (s : State) (r : Reg) (v : Byte) :
    (s.writeReg r v).ackb = if r = .ackb then v else s.ackb := by cases r <;> rfl
@[simp] theorem writeReg_nackb (s : State) (r : Reg) (v : Byte) :
    (s.writeReg r v).nackb = if r = .nackb then v else s.nackb := by cases r <;> rfl
@[simp] theorem writeReg_busyb (s : State) (r : Reg) (v : Byte) :
    (s.writeReg r v).busyb = if r = .busyb then v else s.busyb := by cases r <;> rfl
@[simp] theorem writeReg_opndv (s : State) (r : Reg) (v : Byte) :
    (s.writeReg r v).opndv = if r = .opndv then v else s.opndv := by cases r <;> rfl
@[simp] theorem writeReg_ua2 (s : State) (r : Reg) (v : Byte) :
    (s.writeReg r v).ua2 = if r = .ua2 then v else s.ua2 := by cases r <;> rfl
@[simp] theorem writeReg_bt (s : State) (r : Reg) (v : Byte) :
    (s.writeReg r v).bt = if r = .bt then v else s.bt := by cases r <;> rfl
@[simp] theorem writeReg_cmd (s : State) (r : Reg) (v : Byte) :
    (s.writeReg r v).cmd = if r = .cmd then v else s.cmd := by cases r <;> rfl
@[simp] theorem writeReg_ctrl (s : State) (r : Reg) (v : Byte) :
    (s.writeReg r v).ctrl = if r = .ctrl then v else s.ctrl := by cases r <;> rfl
@[simp] theorem writeReg_data (s : State) (r : Reg) (v : Byte) :
    (s.writeReg r v).data = if r = .data then v else s.data := by cases r <;> rfl
@[simp] theorem writeReg_vfyr (s : State) (r : Reg) (v : Byte) :
    (s.writeReg r v).vfyr = if r = .vfyr then v else s.vfyr := by cases r <;> rfl
@[simp] theorem writeReg_classr (s : State) (r : Reg) (v : Byte) :
    (s.writeReg r v).classr = if r = .classr then v else s.classr := by cases r <;> rfl
@[simp] theorem writeReg_tcstat (s : State) (r : Reg) (v : Byte) :
    (s.writeReg r v).tcstat = if r = .tcstat then v else s.tcstat := by cases r <;> rfl
@[simp] theorem writeReg_tch (s : State) (r : Reg) (v : Byte) :
    (s.writeReg r v).tch = if r = .tch then v else s.tch := by cases r <;> rfl
@[simp] theorem writeReg_tcm (s : State) (r : Reg) (v : Byte) :
    (s.writeReg r v).tcm = if r = .tcm then v else s.tcm := by cases r <;> rfl
@[simp] theorem writeReg_tcs (s : State) (r : Reg) (v : Byte) :
    (s.writeReg r v).tcs = if r = .tcs then v else s.tcs := by cases r <;> rfl
@[simp] theorem writeReg_tcf (s : State) (r : Reg) (v : Byte) :
    (s.writeReg r v).tcf = if r = .tcf then v else s.tcf := by cases r <;> rfl
@[simp] theorem writeReg_flt (s : State) (r : Reg) (v : Byte) :
    (s.writeReg r v).flt = if r = .flt then v else s.flt := by cases r <;> rfl
@[simp] theorem writeReg_ib (s : State) (r : Reg) (v : Byte) : (s.writeReg r v).ib = s.ib := by cases r <;> rfl
@[simp] theorem writeReg_ob (s : State) (r : Reg) (v : Byte) : (s.writeReg r v).ob = s.ob := by cases r <;> rfl
@[simp] theorem writeReg_params (s : State) (r : Reg) (v : Byte) : (s.writeReg r v).params = s.params := by cases r <;> rfl
@[simp] theorem writeReg_inputs (s : State) (r : Reg) (v : Byte) : (s.writeReg r v).inputs = s.inputs := by cases r <;> rfl
@[simp] theorem writeReg_rsp (s : State) (r : Reg) (v : Byte) : (s.writeReg r v).rsp = s.rsp := by cases r <;> rfl

@[simp] theorem iblen_writeReg (s : State) (r : Reg) (v : Byte) : (s.writeReg r v).iblen = s.iblen := by cases r <;> rfl
@[simp] theorem oblen_writeReg (s : State) (r : Reg) (v : Byte) : (s.writeReg r v).oblen = s.oblen := by cases r <;> rfl

/-! ### `setIb` -/

@[simp] theorem setIb_profv (s : State) (b : Buffer) : (s.setIb b).profv = s.profv := rfl
@[simp] theorem setIb_csalg (s : State) (b : Buffer) : (s.setIb b).csalg = s.csalg := rfl
@[simp] theorem setIb_ackb (s : State) (b : Buffer) : (s.setIb b).ackb = s.ackb := rfl
@[simp] theorem setIb_nackb (s : State) (b : Buffer) : (s.setIb b).nackb = s.nackb := rfl
@[simp] theorem setIb_busyb (s : State) (b : Buffer) : (s.setIb b).busyb = s.busyb := rfl
@[simp] theorem setIb_opndv (s : State) (b : Buffer) : (s.setIb b).opndv = s.opndv := rfl
@[simp] theorem setIb_ua2 (s : State) (b : Buffer) : (s.setIb b).ua2 = s.ua2 := rfl
@[simp] theorem setIb_bt (s : State) (b : Buffer) : (s.setIb b).bt = s.bt := rfl
@[simp] theorem setIb_cmd (s : State) (b : Buffer) : (s.setIb b).cmd = s.cmd := rfl
@[simp] theorem setIb_ctrl (s : State) (b : Buffer) : (s.setIb b).ctrl = s.ctrl := rfl
@[simp] theorem setIb_data (s : State) (b : Buffer) : (s.setIb b).data = s.data := rfl
@[simp] theorem setIb_vfyr (s : State) (b : Buffer) : (s.setIb b).vfyr = s.vfyr := rfl
@[simp] theorem setIb_classr (s : State) (b : Buffer) : (s.setIb b).classr = s.classr := rfl
@[simp] theorem setIb_tcstat (s : State) (b : Buffer) : (s.setIb b).tcstat = s.tcstat := rfl
@[simp] theorem setIb_tch (s : State) (b : Buffer) : (s.setIb b).tch = s.tch := rfl
@[simp] theorem setIb_tcm (s : State) (b : Buffer) : (s.setIb b).tcm = s.tcm := rfl
@[simp] theorem setIb_tcs (s : State) (b : Buffer) : (s.setIb b).tcs = s.tcs := rfl
@[simp] theorem setIb_tcf (s : State) (b : Buffer) : (s.setIb b).tcf = s.tcf := rfl
@[simp] theorem setIb_flt (s : State) (b : Buffer) : (s.setIb b).flt = s.flt := rfl
@[simp] theorem setIb_ib (s : State) (b : Buffer) : (s.setIb b).ib = b := rfl
@[simp] theorem setIb_ob (s : State) (b : Buffer) : (s.setIb b).ob = s.ob := rfl
@[simp] theorem setIb_params (s : State) (b : Buffer) : (s.setIb b).params = s.params := rfl
@[simp] theorem setIb_inputs (s : State) (b : Buffer) : (s.setIb b).inputs = s.inputs := rfl
@[simp] theorem setIb_rsp (s : State) (b : Buffer) : (s.setIb b).rsp = s.rsp := rfl
@[simp] theorem readReg_setIb (s : State) (b : Buffer) (r : Reg) : (s.setIb b).readReg r = s.readReg r := by cases r <;> rfl
@[simp] theorem iblen_setIb (s : State) (b : Buffer) : (s.setIb b).iblen = BitVec.ofNat 8 b.length := rfl
@[simp] theorem oblen_setIb (s : State) (b : Buffer) : (s.setIb b).oblen = s.oblen := rfl

/-! ### `setOb` -/

@[simp] theorem setOb_profv (s : State) (b : Buffer) : (s.setOb b).profv = s.profv := rfl
@[simp] theorem setOb_csalg (s : State) (b : Buffer) : (s.setOb b).csalg = s.csalg := rfl
@[simp] theorem setOb_ackb (s : State) (b : Buffer) : (s.setOb b).ackb = s.ackb := rfl
@[simp] theorem setOb_nackb (s : State) (b : Buffer) : (s.setOb b).nackb = s.nackb := rfl
@[simp] theorem setOb_busyb (s : State) (b : Buffer) : (s.setOb b).busyb = s.busyb := rfl
@[simp] theorem setOb_opndv (s : State) (b : Buffer) : (s.setOb b).opndv = s.opndv := rfl
@[simp] theorem setOb_ua2 (s : State) (b : Buffer) : (s.setOb b).ua2 = s.ua2 := rfl
@[simp] theorem setOb_bt (s : State) (b : Buffer) : (s.setOb b).bt = s.bt := rfl
@[simp] theorem setOb_cmd (s : State) (b : Buffer) : (s.setOb b).cmd = s.cmd := rfl
@[simp] theorem setOb_ctrl (s : State) (b : Buffer) : (s.setOb b).ctrl = s.ctrl := rfl
@[simp] theorem setOb_data (s : State) (b : Buffer) : (s.setOb b).data = s.data := rfl
@[simp] theorem setOb_vfyr (s : State) (b : Buffer) : (s.setOb b).vfyr = s.vfyr := rfl
@[simp] theorem setOb_classr (s : State) (b : Buffer) : (s.setOb b).classr = s.classr := rfl
@[simp] theorem setOb_tcstat (s : State) (b : Buffer) : (s.setOb b).tcstat = s.tcstat := rfl
@[simp] theorem setOb_tch (s : State) (b : Buffer) : (s.setOb b).tch = s.tch := rfl
@[simp] theorem setOb_tcm (s : State) (b : Buffer) : (s.setOb b).tcm = s.tcm := rfl
@[simp] theorem setOb_tcs (s : State) (b : Buffer) : (s.setOb b).tcs = s.tcs := rfl
@[simp] theorem setOb_tcf (s : State) (b : Buffer) : (s.setOb b).tcf = s.tcf := rfl
@[simp] theorem setOb_flt (s : State) (b : Buffer) : (s.setOb b).flt = s.flt := rfl
@[simp] theorem setOb_ib (s : State) (b : Buffer) : (s.setOb b).ib = s.ib := rfl
@[simp] theorem setOb_ob (s : State) (b : Buffer) : (s.setOb b).ob = b := rfl
@[simp] theorem setOb_params (s : State) (b : Buffer) : (s.setOb b).params = s.params := rfl
@[simp] theorem setOb_inputs (s : State) (b : Buffer) : (s.setOb b).inputs = s.inputs := rfl
@[simp] theorem setOb_rsp (s : State) (b : Buffer) : (s.setOb b).rsp = s.rsp := rfl
@[simp] theorem readReg_setOb (s : State) (b : Buffer) (r : Reg) : (s.setOb b).readReg r = s.readReg r := by cases r <;> rfl
@[simp] theorem iblen_setOb (s : State) (b : Buffer) : (s.setOb b).iblen = s.iblen := rfl
@[simp] theorem oblen_setOb (s : State) (b : Buffer) : (s.setOb b).oblen = BitVec.ofNat 8 b.length := rfl

/-! ### `setRsp` -/

@[simp] theorem setRsp_profv (s : State) (b : Option RspWord) : (s.setRsp b).profv = s.profv := rfl
@[simp] theorem setRsp_csalg (s : State) (b : Option RspWord) : (s.setRsp b).csalg = s.csalg := rfl
@[simp] theorem setRsp_ackb (s : State) (b : Option RspWord) : (s.setRsp b).ackb = s.ackb := rfl
@[simp] theorem setRsp_nackb (s : State) (b : Option RspWord) : (s.setRsp b).nackb = s.nackb := rfl
@[simp] theorem setRsp_busyb (s : State) (b : Option RspWord) : (s.setRsp b).busyb = s.busyb := rfl
@[simp] theorem setRsp_opndv (s : State) (b : Option RspWord) : (s.setRsp b).opndv = s.opndv := rfl
@[simp] theorem setRsp_ua2 (s : State) (b : Option RspWord) : (s.setRsp b).ua2 = s.ua2 := rfl
@[simp] theorem setRsp_bt (s : State) (b : Option RspWord) : (s.setRsp b).bt = s.bt := rfl
@[simp] theorem setRsp_cmd (s : State) (b : Option RspWord) : (s.setRsp b).cmd = s.cmd := rfl
@[simp] theorem setRsp_ctrl (s : State) (b : Option RspWord) : (s.setRsp b).ctrl = s.ctrl := rfl
@[simp] theorem setRsp_data (s : State) (b : Option RspWord) : (s.setRsp b).data = s.data := rfl
@[simp] theorem setRsp_vfyr (s : State) (b : Option RspWord) : (s.setRsp b).vfyr = s.vfyr := rfl
@[simp] theorem setRsp_classr (s : State) (b : Option RspWord) : (s.setRsp b).classr = s.classr := rfl
@[simp] theorem setRsp_tcstat (s : State) (b : Option RspWord) : (s.setRsp b).tcstat = s.tcstat := rfl
@[simp] theorem setRsp_tch (s : State) (b : Option RspWord) : (s.setRsp b).tch = s.tch := rfl
@[simp] theorem setRsp_tcm (s : State) (b : Option RspWord) : (s.setRsp b).tcm = s.tcm := rfl
@[simp] theorem setRsp_tcs (s : State) (b : Option RspWord) : (s.setRsp b).tcs = s.tcs := rfl
@[simp] theorem setRsp_tcf (s : State) (b : Option RspWord) : (s.setRsp b).tcf = s.tcf := rfl
@[simp] theorem setRsp_flt (s : State) (b : Option RspWord) : (s.setRsp b).flt = s.flt := rfl
@[simp] theorem setRsp_ib (s : State) (b : Option RspWord) : (s.setRsp b).ib = s.ib := rfl
@[simp] theorem setRsp_ob (s : State) (b : Option RspWord) : (s.setRsp b).ob = s.ob := rfl
@[simp] theorem setRsp_params (s : State) (b : Option RspWord) : (s.setRsp b).params = s.params := rfl
@[simp] theorem setRsp_inputs (s : State) (b : Option RspWord) : (s.setRsp b).inputs = s.inputs := rfl
@[simp] theorem setRsp_rsp (s : State) (b : Option RspWord) : (s.setRsp b).rsp = b := rfl
@[simp] theorem readReg_setRsp (s : State) (b : Option RspWord) (r : Reg) : (s.setRsp b).readReg r = s.readReg r := by cases r <;> rfl
@[simp] theorem iblen_setRsp (s : State) (b : Option RspWord) : (s.setRsp b).iblen = s.iblen := rfl
@[simp] theorem oblen_setRsp (s : State) (b : Option RspWord) : (s.setRsp b).oblen = s.oblen := rfl

/-! ### `setInputs` -/

@[simp] theorem setInputs_profv (s : State) (b : List HostInput) : (s.setInputs b).profv = s.profv := rfl
@[simp] theorem setInputs_csalg (s : State) (b : List HostInput) : (s.setInputs b).csalg = s.csalg := rfl
@[simp] theorem setInputs_ackb (s : State) (b : List HostInput) : (s.setInputs b).ackb = s.ackb := rfl
@[simp] theorem setInputs_nackb (s : State) (b : List HostInput) : (s.setInputs b).nackb = s.nackb := rfl
@[simp] theorem setInputs_busyb (s : State) (b : List HostInput) : (s.setInputs b).busyb = s.busyb := rfl
@[simp] theorem setInputs_opndv (s : State) (b : List HostInput) : (s.setInputs b).opndv = s.opndv := rfl
@[simp] theorem setInputs_ua2 (s : State) (b : List HostInput) : (s.setInputs b).ua2 = s.ua2 := rfl
@[simp] theorem setInputs_bt (s : State) (b : List HostInput) : (s.setInputs b).bt = s.bt := rfl
@[simp] theorem setInputs_cmd (s : State) (b : List HostInput) : (s.setInputs b).cmd = s.cmd := rfl
@[simp] theorem setInputs_ctrl (s : State) (b : List HostInput) : (s.setInputs b).ctrl = s.ctrl := rfl
@[simp] theorem setInputs_data (s : State) (b : List HostInput) : (s.setInputs b).data = s.data := rfl
@[simp] theorem setInputs_vfyr (s : State) (b : List HostInput) : (s.setInputs b).vfyr = s.vfyr := rfl
@[simp] theorem setInputs_classr (s : State) (b : List HostInput) : (s.setInputs b).classr = s.classr := rfl
@[simp] theorem setInputs_tcstat (s : State) (b : List HostInput) : (s.setInputs b).tcstat = s.tcstat := rfl
@[simp] theorem setInputs_tch (s : State) (b : List HostInput) : (s.setInputs b).tch = s.tch := rfl
@[simp] theorem setInputs_tcm (s : State) (b : List HostInput) : (s.setInputs b).tcm = s.tcm := rfl
@[simp] theorem setInputs_tcs (s : State) (b : List HostInput) : (s.setInputs b).tcs = s.tcs := rfl
@[simp] theorem setInputs_tcf (s : State) (b : List HostInput) : (s.setInputs b).tcf = s.tcf := rfl
@[simp] theorem setInputs_flt (s : State) (b : List HostInput) : (s.setInputs b).flt = s.flt := rfl
@[simp] theorem setInputs_ib (s : State) (b : List HostInput) : (s.setInputs b).ib = s.ib := rfl
@[simp] theorem setInputs_ob (s : State) (b : List HostInput) : (s.setInputs b).ob = s.ob := rfl
@[simp] theorem setInputs_params (s : State) (b : List HostInput) : (s.setInputs b).params = s.params := rfl
@[simp] theorem setInputs_inputs (s : State) (b : List HostInput) : (s.setInputs b).inputs = b := rfl
@[simp] theorem setInputs_rsp (s : State) (b : List HostInput) : (s.setInputs b).rsp = s.rsp := rfl
@[simp] theorem readReg_setInputs (s : State) (b : List HostInput) (r : Reg) : (s.setInputs b).readReg r = s.readReg r := by cases r <;> rfl
@[simp] theorem iblen_setInputs (s : State) (b : List HostInput) : (s.setInputs b).iblen = s.iblen := rfl
@[simp] theorem oblen_setInputs (s : State) (b : List HostInput) : (s.setInputs b).oblen = s.oblen := rfl

/-! ### `toReset` -/

@[simp] theorem toReset_profv (s : State) : s.toReset.profv = 0x00 := rfl
@[simp] theorem toReset_csalg (s : State) : s.toReset.csalg = 0x00 := rfl
@[simp] theorem toReset_ackb (s : State) : s.toReset.ackb = 0x00 := rfl
@[simp] theorem toReset_nackb (s : State) : s.toReset.nackb = 0x00 := rfl
@[simp] theorem toReset_busyb (s : State) : s.toReset.busyb = 0x00 := rfl
@[simp] theorem toReset_opndv (s : State) : s.toReset.opndv = 0x00 := rfl
@[simp] theorem toReset_ua2 (s : State) : s.toReset.ua2 = 0x00 := rfl
@[simp] theorem toReset_bt (s : State) : s.toReset.bt = 0x00 := rfl
@[simp] theorem toReset_cmd (s : State) : s.toReset.cmd = 0x00 := rfl
@[simp] theorem toReset_ctrl (s : State) : s.toReset.ctrl = 0x00 := rfl
@[simp] theorem toReset_data (s : State) : s.toReset.data = 0x00 := rfl
@[simp] theorem toReset_vfyr (s : State) : s.toReset.vfyr = 0x00 := rfl
@[simp] theorem toReset_classr (s : State) : s.toReset.classr = 0x00 := rfl
@[simp] theorem toReset_tcstat (s : State) : s.toReset.tcstat = 0x00 := rfl
@[simp] theorem toReset_tch (s : State) : s.toReset.tch = 0x00 := rfl
@[simp] theorem toReset_tcm (s : State) : s.toReset.tcm = 0x00 := rfl
@[simp] theorem toReset_tcs (s : State) : s.toReset.tcs = 0x00 := rfl
@[simp] theorem toReset_tcf (s : State) : s.toReset.tcf = 0x00 := rfl
@[simp] theorem toReset_flt (s : State) : s.toReset.flt = 0x00 := rfl
@[simp] theorem toReset_ib (s : State) : s.toReset.ib = [] := rfl
@[simp] theorem toReset_ob (s : State) : s.toReset.ob = [] := rfl
@[simp] theorem toReset_params (s : State) : s.toReset.params = s.params := rfl
@[simp] theorem toReset_inputs (s : State) : s.toReset.inputs = s.inputs := rfl
@[simp] theorem toReset_rsp (s : State) : s.toReset.rsp = none := rfl

/-- After a reset every register of R22 reads 0x00 (R40). -/
@[simp] theorem read_toReset (s : State) (r : RegSel) : s.toReset.read r = 0x00 := by
  rcases r with r | _ | _
  · cases r <;> rfl
  · rfl
  · rfl

/-! ### `setMarked` -/

/-- A `SET` operation's two writes leave this in every register with storage. -/
theorem readReg_setMarked (s : State) (r mask q : Reg) (bit v : Byte) :
    (s.setMarked r mask bit v).readReg q =
      if q = mask then s.readReg mask ||| bit else if q = r then v else s.readReg q := by
  simp [State.setMarked]

@[simp] theorem setMarked_ib (s : State) (r mask : Reg) (bit v : Byte) : (s.setMarked r mask bit v).ib = s.ib := by
  simp [State.setMarked]
@[simp] theorem setMarked_ob (s : State) (r mask : Reg) (bit v : Byte) : (s.setMarked r mask bit v).ob = s.ob := by
  simp [State.setMarked]
@[simp] theorem setMarked_params (s : State) (r mask : Reg) (bit v : Byte) :
    (s.setMarked r mask bit v).params = s.params := by
  simp [State.setMarked]
@[simp] theorem setMarked_inputs (s : State) (r mask : Reg) (bit v : Byte) :
    (s.setMarked r mask bit v).inputs = s.inputs := by
  simp [State.setMarked]

/-! ### `read` over all 21 registers -/

@[simp] theorem read_reg (s : State) (r : Reg) : s.read (.reg r) = s.readReg r := rfl
@[simp] theorem read_iblen (s : State) : s.read .iblen = s.iblen := rfl
@[simp] theorem read_oblen (s : State) : s.read .oblen = s.oblen := rfl

/-- A write of one register leaves every other of the 21 as it was. -/
theorem read_writeReg (s : State) (r : Reg) (v : Byte) (q : RegSel) :
    (s.writeReg r v).read q = if q = .reg r then v else s.read q := by
  rcases q with q | _ | _
  · cases r <;> cases q <;> rfl
  · simp
  · simp

/-- What a `SET` operation's two writes leave in each of the 21 registers. -/
theorem read_setMarked (s : State) (r mask : Reg) (bit v : Byte) (q : RegSel) :
    (s.setMarked r mask bit v).read q =
      if q = .reg mask then s.readReg mask ||| bit else if q = .reg r then v else s.read q := by
  rcases q with q | _ | _ <;> simp [State.setMarked]

@[simp] theorem read_setRsp (s : State) (w : Option RspWord) (q : RegSel) : (s.setRsp w).read q = s.read q := by
  rcases q with q | _ | _ <;> simp

@[simp] theorem read_setInputs (s : State) (l : List HostInput) (q : RegSel) :
    (s.setInputs l).read q = s.read q := by
  rcases q with q | _ | _ <;> simp

/-- The write of `IB` changes `IBLEN` alone among the registers. -/
theorem read_setIb (s : State) (b : Buffer) (q : RegSel) (h : q ≠ .iblen) : (s.setIb b).read q = s.read q := by
  rcases q with q | _ | _ <;> simp_all

/-- The write of `OB` changes `OBLEN` alone among the registers. -/
theorem read_setOb (s : State) (b : Buffer) (q : RegSel) (h : q ≠ .oblen) : (s.setOb b).read q = s.read q := by
  rcases q with q | _ | _ <;> simp_all

end Sys2Proof.Machine
end

