-- ==== Sys2Proof/Laws/Ops.lean ====
section
/-! SUPPORT. What the shared operations can do, each said once: the two ends of an operation, the read-back,
the reads and writes of the buffers. -/

namespace Sys2Proof.Machine

/-- `respond` answers one next state: the response alone changes. -/
theorem respond_next (d : Byte) (s t : State) : respond d s = .next t ↔ t = s.setRsp (some (rspDone d)) := by
  simp [respond, eq_comm]

/-- `raise` answers one next state. -/
theorem raise_next (c : FaultCode) (s t : State) :
    raise c s = .next t ↔ t = (s.writeReg .flt (s.flt ||| faultBit c)).setRsp (some (rspFault c)) := by
  simp [raise, eq_comm]

/-- The response of a fault, as R232 writes it. -/
theorem rspFault_eq (c : FaultCode) :
    rspFault c = 0x8000#16 + (BitVec.ofNat 16 (faultNumber c) <<< 8) := by
  cases c <;> decide

/-- `raise` is fault entry (R232), whole. -/
theorem raise_entered (c : FaultCode) (s : State) : ∃ t, raise c s = .next t ∧ FaultEntered c s t := by
  refine ⟨_, rfl, ?_, ?_, ?_, ?_, ?_⟩
  · simp [faultBit]
  · simp [rspFault_eq]
  · intro r hr
    simp only [read_setRsp, read_writeReg]
    simp_all
  · simp [BuffersKept]
  · simp [OutsideKept]

/-- A completed response is never a faulted one, and each carries what it was made from. -/
@[simp] theorem faulted_rspDone (d : Byte) : faulted (rspDone d) = false := by revert d; decide

@[simp] theorem faulted_rspFault (c : FaultCode) : faulted (rspFault c) = true := by cases c <;> decide

@[simp] theorem rspFault_inj (c k : FaultCode) : rspFault c = rspFault k ↔ c = k := by cases c <;> cases k <;> decide

@[simp] theorem rspDone_inj (d e : Byte) : rspDone d = rspDone e ↔ d = e := by
  constructor
  · intro h
    have h8 := congrArg BitVec.toNat h
    simp only [rspDone, BitVec.toNat_append] at h8
    exact BitVec.eq_of_toNat_eq (by simpa using h8)
  · rintro rfl
    rfl

@[simp] theorem rspDone_ne_rspFault (d : Byte) (c : FaultCode) : rspDone d ≠ rspFault c := by
  intro h
  have := congrArg faulted h
  simp at this

@[simp] theorem rspFault_ne_rspDone (d : Byte) (c : FaultCode) : rspFault c ≠ rspDone d :=
  fun h => rspDone_ne_rspFault d c h.symm

/-- Every read-back answers the byte of its location and changes nothing, or raises its fault. -/
theorem readBack_cases (space : Space) (c : FaultCode) (imm : Byte) (s : State) :
    (∃ b, s.memRead space imm = some b ∧ readBack space c imm s = respond b s) ∨
      (s.memRead space imm = none ∧ readBack space c imm s = raise c s) := by
  unfold readBack
  cases h : s.memRead space imm with
  | some b => exact .inl ⟨b, rfl, rfl⟩
  | none => exact .inr ⟨rfl, rfl⟩

/-- What a read sees does not depend on the response presented. -/
@[simp] theorem memRead_setRsp (s : State) (w : Option RspWord) (space : Space) (i : Byte) :
    (s.setRsp w).memRead space i = s.memRead space i := by
  cases space
  · rfl
  · rfl
  · simp only [State.memRead]
    congr 1

/-- A byte of `IB` is readable exactly below `IBLEN` (R61). -/
theorem memRead_ib_isSome (s : State) (i : Byte) : (s.memRead .ib i).isSome ↔ i.toNat < s.ib.length := by
  simp [State.memRead, indexOf]

/-- A byte of `OB` is readable exactly below `OBLEN` (R61). -/
theorem memRead_ob_isSome (s : State) (i : Byte) : (s.memRead .ob i).isSome ↔ i.toNat < s.ob.length := by
  simp [State.memRead, indexOf]

/-- Read after write, at the end of `IB`: an appended byte is read back at the old length. -/
theorem ib_append_read (s : State) (b : Byte) : (s.setIb (s.ib ++ [b])).ib[s.ib.length]? = some b := by simp

/-- An append leaves every other byte of `IB` as it was. -/
theorem ib_append_read_below (s : State) (b : Byte) (i : Nat) (h : i < s.ib.length) :
    (s.setIb (s.ib ++ [b])).ib[i]? = s.ib[i]? := by
  simpa using List.getElem?_append_left h

/-! ### The canonical form of the buffers -/

theorem memory_wf_iff (s : State) : Memory.wf s = true ↔ s.ib.length ≤ s.params.ibcap ∧
    (s.ob.length = 0 ∨ s.ob.length = 3 ∨ s.ob.length = 4 ∨ s.ob.length = 9) := by
  simp [Memory.wf, or_assoc]

/-- The form depends on the buffers and the capacity alone. -/
theorem memory_wf_of_kept {s t : State} (hib : t.ib = s.ib) (hob : t.ob = s.ob) (hp : t.params = s.params)
    (h : Memory.wf s = true) : Memory.wf t = true := by
  simpa [Memory.wf, hib, hob, hp] using h

/-- Emptying `IB` keeps the form. -/
theorem memory_wf_clearIb {s : State} (h : Memory.wf s = true) : Memory.wf (s.setIb []) = true := by
  simp_all [memory_wf_iff]

/-- Appending one byte below the capacity keeps the form. -/
theorem memory_wf_appendIb {s : State} (b : Byte) (h : Memory.wf s = true) (hne : s.ib.length ≠ s.params.ibcap) :
    Memory.wf (s.setIb (s.ib ++ [b])) = true := by
  simp_all [memory_wf_iff]
  omega

/-- Copying `OB` to `IB` keeps the form: `OBLEN` <= 9 <= `IBCAP` (R132). -/
theorem memory_wf_copyOb {s : State} (hp : s.params.Legal) (h : Memory.wf s = true) :
    Memory.wf (s.setIb s.ob) = true := by
  rw [memory_wf_iff] at *
  have hcap := hp.1
  simp only [setIb_ib, setIb_ob, setIb_params]
  omega

/-- A packet of 3, 4 or 9 bytes in `OB` keeps the form. -/
theorem memory_wf_setOb {s : State} (b : Buffer) (h : Memory.wf s = true)
    (hb : b.length = 3 ∨ b.length = 4 ∨ b.length = 9) : Memory.wf (s.setOb b) = true := by
  simp_all [memory_wf_iff]

/-- A reset keeps the form. -/
theorem memory_wf_toReset (s : State) : Memory.wf s.toReset = true := by
  simp [memory_wf_iff]

/-- The form holds after reset. -/
theorem memory_wf_reset : Memory.wf State.reset = true := by decide

end Sys2Proof.Machine
end

