-- ==== Sys2Proof/Laws/Timecode.lean ====
section
/-! SUPPORT. What the timecode operations write, and when a candidate passes. -/

namespace Sys2Proof.Machine

/-! ### `tcCommit` -/

@[simp] theorem tcCommit_tcstat (s : State) (r : TcResult) : (s.tcCommit r).tcstat = tcStatus r := by
  simp [State.tcCommit]
@[simp] theorem tcCommit_tch (s : State) (r : TcResult) : (s.tcCommit r).tch = BitVec.ofNat 8 (tcTime r).h := by
  simp [State.tcCommit]
@[simp] theorem tcCommit_tcm (s : State) (r : TcResult) : (s.tcCommit r).tcm = BitVec.ofNat 8 (tcTime r).m := by
  simp [State.tcCommit]
@[simp] theorem tcCommit_tcs (s : State) (r : TcResult) : (s.tcCommit r).tcs = BitVec.ofNat 8 (tcTime r).s := by
  simp [State.tcCommit]
@[simp] theorem tcCommit_tcf (s : State) (r : TcResult) : (s.tcCommit r).tcf = BitVec.ofNat 8 (tcTime r).f := by
  simp [State.tcCommit]
@[simp] theorem tcCommit_profv (s : State) (r : TcResult) : (s.tcCommit r).profv = s.profv := by simp [State.tcCommit]
@[simp] theorem tcCommit_csalg (s : State) (r : TcResult) : (s.tcCommit r).csalg = s.csalg := by simp [State.tcCommit]
@[simp] theorem tcCommit_ackb (s : State) (r : TcResult) : (s.tcCommit r).ackb = s.ackb := by simp [State.tcCommit]
@[simp] theorem tcCommit_nackb (s : State) (r : TcResult) : (s.tcCommit r).nackb = s.nackb := by simp [State.tcCommit]
@[simp] theorem tcCommit_busyb (s : State) (r : TcResult) : (s.tcCommit r).busyb = s.busyb := by simp [State.tcCommit]
@[simp] theorem tcCommit_opndv (s : State) (r : TcResult) : (s.tcCommit r).opndv = s.opndv := by simp [State.tcCommit]
@[simp] theorem tcCommit_ua2 (s : State) (r : TcResult) : (s.tcCommit r).ua2 = s.ua2 := by simp [State.tcCommit]
@[simp] theorem tcCommit_bt (s : State) (r : TcResult) : (s.tcCommit r).bt = s.bt := by simp [State.tcCommit]
@[simp] theorem tcCommit_cmd (s : State) (r : TcResult) : (s.tcCommit r).cmd = s.cmd := by simp [State.tcCommit]
@[simp] theorem tcCommit_ctrl (s : State) (r : TcResult) : (s.tcCommit r).ctrl = s.ctrl := by simp [State.tcCommit]
@[simp] theorem tcCommit_data (s : State) (r : TcResult) : (s.tcCommit r).data = s.data := by simp [State.tcCommit]
@[simp] theorem tcCommit_vfyr (s : State) (r : TcResult) : (s.tcCommit r).vfyr = s.vfyr := by simp [State.tcCommit]
@[simp] theorem tcCommit_classr (s : State) (r : TcResult) : (s.tcCommit r).classr = s.classr := by simp [State.tcCommit]
@[simp] theorem tcCommit_flt (s : State) (r : TcResult) : (s.tcCommit r).flt = s.flt := by simp [State.tcCommit]
@[simp] theorem tcCommit_ib (s : State) (r : TcResult) : (s.tcCommit r).ib = s.ib := by simp [State.tcCommit]
@[simp] theorem tcCommit_ob (s : State) (r : TcResult) : (s.tcCommit r).ob = s.ob := by simp [State.tcCommit]
@[simp] theorem tcCommit_params (s : State) (r : TcResult) : (s.tcCommit r).params = s.params := by simp [State.tcCommit]
@[simp] theorem tcCommit_inputs (s : State) (r : TcResult) : (s.tcCommit r).inputs = s.inputs := by simp [State.tcCommit]
@[simp] theorem tcCommit_rsp (s : State) (r : TcResult) : (s.tcCommit r).rsp = s.rsp := by simp [State.tcCommit]

/-- The commit leaves every register but its five as it was (R211). -/
theorem read_tcCommit (s : State) (r : TcResult) (q : RegSel)
    (h : q ∉ [RegSel.reg .tcstat, .reg .tch, .reg .tcm, .reg .tcs, .reg .tcf]) : (s.tcCommit r).read q = s.read q := by
  simp_all [State.tcCommit, read_writeReg]

/-! ### The values of `TCSTAT` (R211) -/

@[simp] theorem tcStatus_screened : tcStatus .screened = 0x88 := by decide
@[simp] theorem tcStatus_noDecode : tcStatus .noDecode = 0x80 := by decide
@[simp] theorem tcStatus_found_packed (v : TimeValue) : tcStatus (.found .packed v) = 0x81 :=
  show tcstatValue true 0 false = 0x81 by decide
@[simp] theorem tcStatus_found_bcd (v : TimeValue) : tcStatus (.found .bcd v) = 0x83 :=
  show tcstatValue true 1 false = 0x83 by decide
@[simp] theorem tcStatus_found_binary (v : TimeValue) : tcStatus (.found .binary v) = 0x85 :=
  show tcstatValue true 2 false = 0x85 by decide
@[simp] theorem tcStatus_found_reversed (v : TimeValue) : tcStatus (.found .reversed v) = 0x87 :=
  show tcstatValue true 3 false = 0x87 by decide

@[simp] theorem tcTime_screened : tcTime .screened = ⟨0, 0, 0, 0⟩ := rfl
@[simp] theorem tcTime_noDecode : tcTime .noDecode = ⟨0, 0, 0, 0⟩ := rfl
@[simp] theorem tcTime_found (k : Candidate) (v : TimeValue) : tcTime (.found k v) = v := rfl

/-! ### Candidates -/

theorem tcValid_iff (v : TimeValue) : tcValid v = true ↔ v.h ≤ 23 ∧ v.m ≤ 59 ∧ v.s ≤ 59 ∧ v.f ≤ 29 := by
  simp [tcValid, and_assoc]

/-- A candidate passes with the value it yields, if that is valid (R208). -/
theorem passValue_eq_some (strict : Bool) (k : Candidate) (b : List Byte) (v : TimeValue) :
    passValue strict k b = some v ↔ candidateValue strict k b = some v ∧ tcValid v = true := by
  simp [passValue, Option.filter_eq_some_iff]

theorem passValue_eq_none (strict : Bool) (k : Candidate) (b : List Byte) :
    passValue strict k b = none ↔ ∀ v, candidateValue strict k b = some v → tcValid v = false := by
  simp [passValue, Option.filter_eq_none_iff]

/-- The chain's head wins if it passes, and is passed over if not (R210). -/
theorem firstPass_cons (strict : Bool) (b : List Byte) (k : Candidate) (ks : List Candidate) :
    (∃ v, passValue strict k b = some v ∧ firstPass strict b (k :: ks) = .found k v) ∨
      (passValue strict k b = none ∧ firstPass strict b (k :: ks) = firstPass strict b ks) := by
  cases h : passValue strict k b with
  | some v => exact .inl ⟨v, rfl, by simp [firstPass, h]⟩
  | none => exact .inr ⟨rfl, by simp [firstPass, h]⟩

/-- The screen in words (R209). -/
theorem sentinel_iff (b : List Byte) :
    sentinel b = true ↔ (∀ x ∈ b, x = 0x00) ∨ (∀ x ∈ b, x = 0xFF) ∨ b.head? = some 0x91 := by
  simp [sentinel, or_assoc]

end Sys2Proof.Machine
end

