-- ==== Sys2Proof/Laws/Exec.lean ====
section
/-! SUPPORT. What an operation can do, said once: it raises a fault, or it responds in the state that its
rule writes. Whole-machine rules are derived from `exec_cases`. -/

namespace Sys2Proof.Machine

/-- A result whose time, where it found one, is valid (45_timecode.md R200, R208). -/
def PassedResult : TcResult → Prop
  | .found _ v => tcValid v = true
  | .screened | .noDecode => True

/-- The state that a completed operation's rule leaves, before the response is presented. -/
def Written (i : Instr) (s u : State) : Prop :=
  match i with
  | .nop | .rdreg _ | .rdob _ | .rdib _ => u = s
  | .srst => u = s.toReset
  | .setalg n => ¬(0x01 : Byte) < n ∧ u = s.setMarked .csalg .profv algvBit n
  | .setack n => u = s.setMarked .ackb .profv ackvBit n
  | .setnack n => u = s.setMarked .nackb .profv nackvBit n
  | .setbusy n => u = s.setMarked .busyb .profv busyvBit n
  | .setua2 n => u = s.setMarked .ua2 .opndv ua2vBit n
  | .setbt n => u = s.setMarked .bt .opndv btvBit n
  | .setcmd n => u = s.setMarked .cmd .opndv cmdvBit n
  | .setctrl n => u = s.setMarked .ctrl .opndv ctrlvBit n
  | .setdata n => u = s.setMarked .data .opndv datavBit n
  | .ibclr => u = s.setIb []
  | .ibpush b => s.ib.length ≠ s.params.ibcap ∧ u = s.setIb (s.ib ++ [b])
  | .ob2ib => u = s.setIb s.ob
  | .cenc => u = s.setOb s.frame
  | .nenc => (s.ib.length = 2 ∨ s.ib.length = 3) ∧ u = s.setOb (npPacket s.ib)
  | .cvfy | .nvfy => ∃ ok, u = s.writeReg .vfyr (vfyrValue ok)
  | .clsfy => ∃ c, u = s.writeReg .classr (classValue c)
  | .tcdec | .tccand _ => ∃ r, PassedResult r ∧ u = s.tcCommit r

/-- The chain finds valid times only (R210). -/
theorem firstPass_passed (strict : Bool) (b : List Byte) (ks : List Candidate) : PassedResult (firstPass strict b ks) := by
  induction ks with
  | nil => trivial
  | cons k ks ih =>
    unfold firstPass
    split
    · next v h => exact ((passValue_eq_some ..).mp h).2
    · exact ih

theorem tcDecode_passed (strict : Bool) (b : List Byte) : PassedResult (tcDecode strict b) := by
  unfold tcDecode
  split
  · trivial
  · exact firstPass_passed strict b chainOrder

/-- The inversion of `exec`: every operation raises a fault, or responds in the state its rule writes. -/
theorem exec_cases (i : Instr) (s : State) :
    (∃ c, exec i s = raise c s) ∨ ∃ d u, exec i s = respond d u ∧ Written i s u := by
  cases i with
  | nop => exact .inr ⟨_, _, rfl, rfl⟩
  | srst => exact .inr ⟨_, _, rfl, rfl⟩
  | setalg n =>
    by_cases h : (0x01 : Byte) < n
    · exact .inl ⟨_, if_pos h⟩
    · exact .inr ⟨_, _, if_neg h, h, rfl⟩
  | setack n => exact .inr ⟨_, _, rfl, rfl⟩
  | setnack n => exact .inr ⟨_, _, rfl, rfl⟩
  | setbusy n => exact .inr ⟨_, _, rfl, rfl⟩
  | setua2 n => exact .inr ⟨_, _, rfl, rfl⟩
  | setbt n => exact .inr ⟨_, _, rfl, rfl⟩
  | setcmd n => exact .inr ⟨_, _, rfl, rfl⟩
  | setctrl n => exact .inr ⟨_, _, rfl, rfl⟩
  | setdata n => exact .inr ⟨_, _, rfl, rfl⟩
  | ibclr => exact .inr ⟨_, _, rfl, rfl⟩
  | ibpush b =>
    by_cases h : s.ib.length = s.params.ibcap
    · exact .inl ⟨_, if_pos h⟩
    · exact .inr ⟨_, _, if_neg h, h, rfl⟩
  | ob2ib => exact .inr ⟨_, _, rfl, rfl⟩
  | cenc =>
    by_cases h : (algWritten s && operandsWritten s) = true
    · exact .inr ⟨_, _, if_pos h, rfl⟩
    · exact .inl ⟨_, if_neg h⟩
  | cvfy =>
    by_cases h : (!algWritten s) = true
    · exact .inl ⟨_, if_pos h⟩
    · by_cases h9 : s.ib.length ≠ 9
      · exact .inl ⟨_, (if_neg h).trans (if_pos h9)⟩
      · exact .inr ⟨_, _, (if_neg h).trans (if_neg h9), _, rfl⟩
  | nenc =>
    by_cases h : s.ib.length ≠ 2 ∧ s.ib.length ≠ 3
    · exact .inl ⟨_, if_pos h⟩
    · exact .inr ⟨_, _, if_neg h, by omega, rfl⟩
  | nvfy =>
    by_cases h : s.ib.length ≠ 3 ∧ s.ib.length ≠ 4
    · exact .inl ⟨_, if_pos h⟩
    · exact .inr ⟨_, _, if_neg h, _, rfl⟩
  | clsfy =>
    by_cases h : classBytesWritten s = true
    · exact .inr ⟨_, _, if_pos h, _, rfl⟩
    · exact .inl ⟨_, if_neg h⟩
  | tcdec => exact .inr ⟨_, _, rfl, _, tcDecode_passed _ _, rfl⟩
  | tccand n =>
    cases h : candidateOfNumber n with
    | none => exact .inl ⟨.illegalOperand, by simp [exec, execTccand, h]⟩
    | some k =>
      exact .inr ⟨tcStatus (tcOne s.params.bcdStrict k s.ib), s.tcCommit (tcOne s.params.bcdStrict k s.ib),
        by simp [exec, execTccand, h], _, firstPass_passed _ _ _, rfl⟩
  | rdreg n =>
    rcases readBack_cases .reg .illegalOperand n s with ⟨b, -, h⟩ | ⟨-, h⟩
    · exact .inr ⟨b, s, h, rfl⟩
    · exact .inl ⟨_, h⟩
  | rdob n =>
    rcases readBack_cases .ob .indexError n s with ⟨b, -, h⟩ | ⟨-, h⟩
    · exact .inr ⟨b, s, h, rfl⟩
    · exact .inl ⟨_, h⟩
  | rdib n =>
    rcases readBack_cases .ib .indexError n s with ⟨b, -, h⟩ | ⟨-, h⟩
    · exact .inr ⟨b, s, h, rfl⟩
    · exact .inl ⟨_, h⟩

/-- No operation that completes changes what is no state of the block. -/
theorem written_outside {i : Instr} {s u : State} (h : Written i s u) : OutsideKept s u := by
  cases i <;> simp only [Written] at h
  case cvfy | nvfy | clsfy => obtain ⟨_, rfl⟩ := h; simp [OutsideKept]
  case tcdec | tccand => obtain ⟨_, -, rfl⟩ := h; simp [OutsideKept]
  case setalg | ibpush | nenc => obtain ⟨-, rfl⟩ := h; simp [OutsideKept]
  all_goals subst h; simp [OutsideKept]

end Sys2Proof.Machine
end

