-- ==== Sys2Proof/Laws/Step.lean ====
section
/-! SUPPORT. The inversion of `acceptWord` and of `step`. -/

namespace Sys2Proof.Machine

/-- An accepted word raises a fault, or its operation responds in the state its rule writes. -/
theorem acceptWord_cases (w : OpWord) (s : State) :
    (∃ c, acceptWord w s = raise c s) ∨
      ∃ i d u, decode w = .ok i ∧ acceptWord w s = respond d u ∧ Written i s u := by
  unfold acceptWord
  split
  · next i hd =>
    rcases exec_cases i s with ⟨c, h⟩ | ⟨d, u, h, hw⟩
    · exact .inl ⟨c, h⟩
    · exact .inr ⟨i, d, u, hd, h, hw⟩
  · exact .inl ⟨_, rfl⟩

/-- A step is idle, takes a cycle of `rst`, or accepts the oldest word presented. -/
theorem step_cases {s t : State} (h : step s = .next t) :
    (s.inputs = [] ∧ t = s.setRsp none) ∨
      (∃ rest, s.inputs = .rst :: rest ∧ t = (s.setInputs rest).toReset) ∨
      ∃ w rest, s.inputs = .op w :: rest ∧ acceptWord w (s.setInputs rest) = .next t := by
  unfold step at h
  split at h
  · next hs => exact .inl ⟨hs, by simpa [idle, eq_comm] using h⟩
  · next x rest hs =>
    cases x with
    | rst => exact .inr (.inl ⟨rest, hs, by simpa [takeInput, resetCycle, eq_comm] using h⟩)
    | op w => exact .inr (.inr ⟨w, rest, hs, h⟩)

end Sys2Proof.Machine
end

