-- ==== Sys2Proof/Laws/Claims.lean ====
section
/-! SUPPORT. How the claims' terms (Safety.lean) are met: a completed operation, a refused one, a run of
operations with its answers, and what the writes of one register or buffer keep. -/

namespace Sys2Proof.Machine

/-- An operation that responds completes, in the state its rule leaves. -/
theorem completes_of_respond {i : Instr} {s u : State} {d : Byte} {P : State → Prop} (h : exec i s = respond d u)
    (ho : OutsideKept s u) (hp : P (u.setRsp (some (rspDone d)))) : Completes i s d P :=
  ⟨_, h, rfl, by simpa [OutsideKept] using ho, hp⟩

/-- An operation that raises is refused. -/
theorem refuses_of_raise {i : Instr} {s : State} {c : FaultCode} (h : exec i s = raise c s) : Refuses i s c := by
  obtain ⟨t, ht, hf⟩ := raise_entered c s
  exact ⟨t, h.trans ht, hf⟩

/-- The first operation of a run, where it responds. -/
theorem answers_of_respond {i : Instr} {s u : State} {d : Byte} (is : List Instr) (h : exec i s = respond d u) :
    answers (i :: is) s = (answers is (u.setRsp (some (rspDone d)))).map fun p => (rspDone d :: p.1, p.2) := by
  simp [answers, h, respond]

theorem regsKept_setRsp (s : State) (w : Option RspWord) : RegsKeptBut [] s (s.setRsp w) := by
  intro r _
  simp

theorem regsKept_writeReg (s : State) (r : Reg) (v : Byte) (w : Option RspWord) :
    RegsKeptBut [.reg r] s ((s.writeReg r v).setRsp w) := by
  intro q hq
  simp only [List.mem_singleton] at hq
  simp [read_writeReg, hq]

theorem regsKept_setMarked (s : State) (r mask : Reg) (bit v : Byte) (w : Option RspWord) :
    RegsKeptBut [.reg r, .reg mask] s ((s.setMarked r mask bit v).setRsp w) := by
  intro q hq
  simp only [List.mem_cons, List.not_mem_nil, or_false, not_or] at hq
  simp [read_setMarked, hq]

theorem regsKept_setIb (s : State) (b : Buffer) (w : Option RspWord) : RegsKeptBut [.iblen] s ((s.setIb b).setRsp w) := by
  intro q hq
  simpa using read_setIb s b q (by simpa using hq)

theorem regsKept_setOb (s : State) (b : Buffer) (w : Option RspWord) : RegsKeptBut [.oblen] s ((s.setOb b).setRsp w) := by
  intro q hq
  simpa using read_setOb s b q (by simpa using hq)

theorem regsKept_tcCommit (s : State) (r : TcResult) (w : Option RspWord) :
    RegsKeptBut [.reg .tcstat, .reg .tch, .reg .tcm, .reg .tcs, .reg .tcf] s ((s.tcCommit r).setRsp w) := by
  intro q hq
  simpa using read_tcCommit s r q hq

end Sys2Proof.Machine
end

