-- ==== Sys2Proof/Laws/PerInstr.lean ====
section
/-! SUPPORT. Statements for all operations, made per operation: the word that `encode` writes is selected by
the operation's own row of the opcode map (30_encoding.md R86), with its operand in bits 7:0 (R80). -/

/-- The operation's own row selects its word, and bits 7:0 of the word are its operand, 0x00 for none. -/
def Sys2Proof.Laws.EncodedRow.Statement (i : Sys2Proof.Instr) : Prop :=
  (∃ r ∈ Sys2Proof.opcodeMap, r.mnemonic = i.mnemonic ∧ r.selects (Sys2Proof.encode i) = true) ∧
    Sys2Proof.imm8Of (Sys2Proof.encode i) = i.operand.getD 0x00

theorem Sys2Proof.Laws.EncodedRow.nop : Sys2Proof.Laws.EncodedRow.Statement .nop := by
  unfold Sys2Proof.Laws.EncodedRow.Statement
  decide

theorem Sys2Proof.Laws.EncodedRow.srst : Sys2Proof.Laws.EncodedRow.Statement .srst := by
  unfold Sys2Proof.Laws.EncodedRow.Statement
  decide

theorem Sys2Proof.Laws.EncodedRow.setalg (imm : Sys2Proof.Byte) :
    Sys2Proof.Laws.EncodedRow.Statement (.setalg imm) := by
  unfold Sys2Proof.Laws.EncodedRow.Statement
  revert imm
  decide

theorem Sys2Proof.Laws.EncodedRow.setack (imm : Sys2Proof.Byte) :
    Sys2Proof.Laws.EncodedRow.Statement (.setack imm) := by
  unfold Sys2Proof.Laws.EncodedRow.Statement
  revert imm
  decide

theorem Sys2Proof.Laws.EncodedRow.setnack (imm : Sys2Proof.Byte) :
    Sys2Proof.Laws.EncodedRow.Statement (.setnack imm) := by
  unfold Sys2Proof.Laws.EncodedRow.Statement
  revert imm
  decide

theorem Sys2Proof.Laws.EncodedRow.setbusy (imm : Sys2Proof.Byte) :
    Sys2Proof.Laws.EncodedRow.Statement (.setbusy imm) := by
  unfold Sys2Proof.Laws.EncodedRow.Statement
  revert imm
  decide

theorem Sys2Proof.Laws.EncodedRow.setua2 (imm : Sys2Proof.Byte) :
    Sys2Proof.Laws.EncodedRow.Statement (.setua2 imm) := by
  unfold Sys2Proof.Laws.EncodedRow.Statement
  revert imm
  decide

theorem Sys2Proof.Laws.EncodedRow.setbt (imm : Sys2Proof.Byte) :
    Sys2Proof.Laws.EncodedRow.Statement (.setbt imm) := by
  unfold Sys2Proof.Laws.EncodedRow.Statement
  revert imm
  decide

theorem Sys2Proof.Laws.EncodedRow.setcmd (imm : Sys2Proof.Byte) :
    Sys2Proof.Laws.EncodedRow.Statement (.setcmd imm) := by
  unfold Sys2Proof.Laws.EncodedRow.Statement
  revert imm
  decide

theorem Sys2Proof.Laws.EncodedRow.setctrl (imm : Sys2Proof.Byte) :
    Sys2Proof.Laws.EncodedRow.Statement (.setctrl imm) := by
  unfold Sys2Proof.Laws.EncodedRow.Statement
  revert imm
  decide

theorem Sys2Proof.Laws.EncodedRow.setdata (imm : Sys2Proof.Byte) :
    Sys2Proof.Laws.EncodedRow.Statement (.setdata imm) := by
  unfold Sys2Proof.Laws.EncodedRow.Statement
  revert imm
  decide

theorem Sys2Proof.Laws.EncodedRow.ibclr : Sys2Proof.Laws.EncodedRow.Statement .ibclr := by
  unfold Sys2Proof.Laws.EncodedRow.Statement
  decide

theorem Sys2Proof.Laws.EncodedRow.ibpush (imm : Sys2Proof.Byte) :
    Sys2Proof.Laws.EncodedRow.Statement (.ibpush imm) := by
  unfold Sys2Proof.Laws.EncodedRow.Statement
  revert imm
  decide

theorem Sys2Proof.Laws.EncodedRow.ob2ib : Sys2Proof.Laws.EncodedRow.Statement .ob2ib := by
  unfold Sys2Proof.Laws.EncodedRow.Statement
  decide

theorem Sys2Proof.Laws.EncodedRow.cenc : Sys2Proof.Laws.EncodedRow.Statement .cenc := by
  unfold Sys2Proof.Laws.EncodedRow.Statement
  decide

theorem Sys2Proof.Laws.EncodedRow.cvfy : Sys2Proof.Laws.EncodedRow.Statement .cvfy := by
  unfold Sys2Proof.Laws.EncodedRow.Statement
  decide

theorem Sys2Proof.Laws.EncodedRow.nenc : Sys2Proof.Laws.EncodedRow.Statement .nenc := by
  unfold Sys2Proof.Laws.EncodedRow.Statement
  decide

theorem Sys2Proof.Laws.EncodedRow.nvfy : Sys2Proof.Laws.EncodedRow.Statement .nvfy := by
  unfold Sys2Proof.Laws.EncodedRow.Statement
  decide

theorem Sys2Proof.Laws.EncodedRow.clsfy : Sys2Proof.Laws.EncodedRow.Statement .clsfy := by
  unfold Sys2Proof.Laws.EncodedRow.Statement
  decide

theorem Sys2Proof.Laws.EncodedRow.tcdec : Sys2Proof.Laws.EncodedRow.Statement .tcdec := by
  unfold Sys2Proof.Laws.EncodedRow.Statement
  decide

theorem Sys2Proof.Laws.EncodedRow.tccand (imm : Sys2Proof.Byte) :
    Sys2Proof.Laws.EncodedRow.Statement (.tccand imm) := by
  unfold Sys2Proof.Laws.EncodedRow.Statement
  revert imm
  decide

theorem Sys2Proof.Laws.EncodedRow.rdreg (imm : Sys2Proof.Byte) :
    Sys2Proof.Laws.EncodedRow.Statement (.rdreg imm) := by
  unfold Sys2Proof.Laws.EncodedRow.Statement
  revert imm
  decide

theorem Sys2Proof.Laws.EncodedRow.rdob (imm : Sys2Proof.Byte) :
    Sys2Proof.Laws.EncodedRow.Statement (.rdob imm) := by
  unfold Sys2Proof.Laws.EncodedRow.Statement
  revert imm
  decide

theorem Sys2Proof.Laws.EncodedRow.rdib (imm : Sys2Proof.Byte) :
    Sys2Proof.Laws.EncodedRow.Statement (.rdib imm) := by
  unfold Sys2Proof.Laws.EncodedRow.Statement
  revert imm
  decide
end

