-- ==== Sys2Proof/Tests/Slice0.lean ====
section
/-! SUPPORT. The model's own tests: every expected value is taken from spec/95_test_vectors.md, from an example
of a rule, or worked out by hand from a rule (each comment says which); and, for each statement that has
hypotheses, a state and operands that meet them. -/

namespace Sys2Proof.Tests

open Sys2Proof Sys2Proof.Machine

/-! ### Helpers -/

/-- What the test looks at, in the next state; nothing where there is none. -/
def seen {α : Type} (f : State → α) : Outcome → Option α
  | .next t => some (f t)
  | .fault _ => none
  | .refused _ => none

/-- One step on an operation word, presented to the state. -/
def run {α : Type} (w : OpWord) (s : State) (f : State → α) : Option α := seen f (step (s.withFetchWord 16 w.toNat))

/-- The reset state with these bytes in `IB`. -/
def holding (b : Buffer) : State := { State.reset with ib := b }

/-- The profile of 95_test_vectors.md program P1: TWOS, 0x04, 0x05, 0x06. -/
def profiled (b : Buffer) : State := { holding b with profv := 0x0F, ackb := 0x04, nackb := 0x05, busyb := 0x06 }

/-- The same with XOR. -/
def profiledXor (b : Buffer) : State := { profiled b with csalg := 0x01 }

/-- The profile, and the five operands written. -/
def operands (ua2 bt cmd ctrl data : Byte) : State :=
  { profiled [] with opndv := 0x1F, ua2 := ua2, bt := bt, cmd := cmd, ctrl := ctrl, data := data }

/-- The source's example (95_test_vectors.md 1.1). -/
def example1 : State := operands 0x01 0x00 0x61 0x10 0x80

/-- The frame of the source's example under TWOS. -/
def frame1 : Buffer := [0x02, 0x06, 0x01, 0x01, 0x00, 0x61, 0x10, 0x80, 0x07]

/-- The parameters with `BCD_STRICT` = true. -/
def strictly (s : State) : State := { s with params := { ibcap := 64, bcdStrict := true } }

/-- The smallest capacity (95_test_vectors.md program P9). -/
def smallest (b : Buffer) : State := { profiled b with params := { ibcap := 9, bcdStrict := false } }

/-- Response, `TCSTAT`, and the four time registers. -/
def timeSeen (t : State) : Option RspWord × Byte × List Byte := (t.rsp, t.tcstat, [t.tch, t.tcm, t.tcs, t.tcf])

/-! ### WellFormed: an ill-formed term for each check (30_encoding.md R88) -/

theorem test_setalg_2_ill_formed : ¬(Instr.setalg 0x02).WellFormed := by decide
theorem test_tccand_0_and_5_ill_formed : ¬(Instr.tccand 0x00).WellFormed ∧ ¬(Instr.tccand 0x05).WellFormed := by decide
theorem test_rdreg_unassigned_ill_formed :
    ∀ n ∈ [0x05#8, 0x07#8, 0x0E#8, 0x0F#8, 0x12#8, 0x17#8, 0x20#8, 0xFF#8], ¬(Instr.rdreg n).WellFormed := by decide
theorem test_legal_operands_well_formed :
    (Instr.setalg 0x01).WellFormed ∧ (Instr.tccand 0x04).WellFormed ∧ (Instr.rdreg 0x1F).WellFormed ∧
      (Instr.rdreg 0x08).WellFormed ∧ (Instr.rdob 0xFF).WellFormed ∧ (Instr.setack 0xFF).WellFormed := by decide

/-! ### Decoding: words written out from the table of R86, and from 95_test_vectors.md section 4 -/

theorem test_decode_control :
    decode 0b0000000000000000 = .ok .nop ∧ decode 0b0000000100000000 = .ok .srst ∧
      decode 0b0001000000000001 = .ok (.setalg 0x01) ∧ decode 0b0001000111111111 = .ok (.setack 0xFF) ∧
      decode 0b0001001000000000 = .ok (.setnack 0x00) ∧ decode 0b0001001110100101 = .ok (.setbusy 0xA5) := by decide
theorem test_decode_operand_registers :
    decode 0x20FF = .ok (.setua2 0xFF) ∧ decode 0x2100 = .ok (.setbt 0x00) ∧ decode 0x2261 = .ok (.setcmd 0x61) ∧
      decode 0x2310 = .ok (.setctrl 0x10) ∧ decode 0x2402 = .ok (.setdata 0x02) := by decide
theorem test_decode_buffers :
    decode 0b0011000000000000 = .ok .ibclr ∧ decode 0b0011000111111111 = .ok (.ibpush 0xFF) ∧
      decode 0b0011001000000000 = .ok .ob2ib ∧ decode 0b0111000000011111 = .ok (.rdreg 0x1F) ∧
      decode 0b0111000111111111 = .ok (.rdob 0xFF) ∧ decode 0b0111001000001000 = .ok (.rdib 0x08) := by decide
theorem test_decode_codecs :
    decode 0b0100000000000000 = .ok .cenc ∧ decode 0b0100000100000000 = .ok .cvfy ∧
      decode 0b0100100000000000 = .ok .nenc ∧ decode 0b0100100100000000 = .ok .nvfy := by decide
theorem test_decode_classifier_and_timecode :
    decode 0b0101000000000000 = .ok .clsfy ∧ decode 0b0110000000000000 = .ok .tcdec ∧
      decode 0b0110000100000100 = .ok (.tccand 0x04) := by decide
theorem test_decode_reserved :
    [0x0001#16, 0x01FF#16, 0x0200#16, 0x0F00#16, 0x1400#16, 0x2500#16, 0x3001#16, 0x3300#16, 0x4001#16, 0x4200#16,
      0x4700#16, 0x4A00#16, 0x5001#16, 0x5100#16, 0x6001#16, 0x6200#16, 0x7300#16, 0x8000#16, 0xFFFF#16].map decodeChecked =
      List.replicate 19 (.error .illegalOp) := rfl
theorem test_decode_illegal_operand :
    [0x1002#16, 0x6100#16, 0x6105#16, 0x7005#16, 0x7020#16].map decodeChecked =
      List.replicate 5 (.error .illegalOperand) := rfl
theorem test_decode_table_word :
    decodeTableWord 16 0x1104 = some (.setack 0x04) ∧ decodeTableWord 16 0x0200 = none := by decide

/-! ### Control and configuration (95_test_vectors.md 2.1) -/

theorem test_nop : run 0x0000 example1 (fun t => (t.rsp, { t with rsp := none })) = some (some 0x0000, example1) := rfl
theorem test_srst :
    run 0x0100 { example1 with flt := 0x3F, ib := frame1, ob := frame1, vfyr := 0x81, tch := 0x0C }
      (fun t => { t with rsp := none }) = some State.reset := rfl
theorem test_setalg_xor : run 0x1001 State.reset (fun t => (t.rsp, t.csalg, t.profv)) = some (some 0x0000, 0x01, 0x01) := by
  decide
theorem test_setalg_2_refused :
    run 0x1002 State.reset (fun t => (t.rsp, t.flt, t.csalg, t.profv)) = some (some 0x8200, 0x02, 0x00, 0x00) := by decide
theorem test_setack_latest_wins :
    run 0x1110 { State.reset with ackb := 0x04, profv := 0x02 } (fun t => (t.rsp, t.ackb, t.profv)) =
      some (some 0x0000, 0x10, 0x02) := by decide
theorem test_setack_zero_is_written :
    run 0x1100 State.reset (fun t => (t.rsp, t.ackb, t.profv)) = some (some 0x0000, 0x00, 0x02) := by decide
theorem test_setnack : run 0x1205 State.reset (fun t => (t.rsp, t.nackb, t.profv)) = some (some 0x0000, 0x05, 0x04) := by decide
theorem test_setbusy : run 0x1306 State.reset (fun t => (t.rsp, t.busyb, t.profv)) = some (some 0x0000, 0x06, 0x08) := by decide
theorem test_setua2 : run 0x2001 State.reset (fun t => (t.rsp, t.ua2, t.opndv)) = some (some 0x0000, 0x01, 0x01) := by decide
theorem test_setbt : run 0x21A5 State.reset (fun t => (t.rsp, t.bt, t.opndv)) = some (some 0x0000, 0xA5, 0x02) := by decide
theorem test_setcmd : run 0x2261 State.reset (fun t => (t.rsp, t.cmd, t.opndv)) = some (some 0x0000, 0x61, 0x04) := by decide
theorem test_setctrl : run 0x2310 State.reset (fun t => (t.rsp, t.ctrl, t.opndv)) = some (some 0x0000, 0x10, 0x08) := by decide
theorem test_setdata : run 0x2480 State.reset (fun t => (t.rsp, t.data, t.opndv)) = some (some 0x0000, 0x80, 0x10) := by decide

/-! ### Buffers and read-backs (95_test_vectors.md 2.2, P9; examples of R134 to R136) -/

theorem test_ibclr : run 0x3000 (holding [0x10, 0x22]) (fun t => (t.rsp, t.ib)) = some (some 0x0000, []) := by decide
theorem test_ibpush_appends : run 0x3122 (holding [0x10]) (fun t => (t.rsp, t.ib)) = some (some 0x0002, [0x10, 0x22]) := by
  decide
theorem test_ibpush_overflow :
    run 0x31AA (smallest frame1) (fun t => (t.rsp, t.flt, t.ib)) = some (some 0x8500, 0x10, frame1) := by decide
theorem test_ob2ib :
    run 0x3200 { holding [0xAA] with ob := frame1 } (fun t => (t.rsp, t.ib, t.ob)) = some (some 0x0009, frame1, frame1) := by
  decide
theorem test_ob2ib_empty : run 0x3200 (holding [0xAA]) (fun t => (t.rsp, t.ib)) = some (some 0x0000, []) := by decide
theorem test_rdreg_flt_not_cleared :
    run 0x701F { State.reset with flt := 0x22 } (fun t => (t.rsp, t.flt)) = some (some 0x0022, 0x22) := by decide
theorem test_rdreg_unassigned_refused :
    run 0x700E State.reset (fun t => (t.rsp, t.flt)) = some (some 0x8200, 0x02) := by decide
theorem test_rdob_last_byte : run 0x7108 { State.reset with ob := frame1 } (·.rsp) = some (some 0x0007) := by decide
theorem test_rdob_past_end :
    run 0x7109 { State.reset with ob := frame1 } (fun t => (t.rsp, t.flt)) = some (some 0x8600, 0x20) := by decide
theorem test_rdib_1 : run 0x7201 (holding [0x10, 0x22]) (·.rsp) = some (some 0x0022) := by decide
theorem test_rdib_past_end : run 0x7202 (holding [0x10, 0x22]) (fun t => (t.rsp, t.flt)) = some (some 0x8600, 0x20) := by decide

/-! ### Cart-robot codec (95_test_vectors.md 1.1, 2.3, 2.7) -/

theorem test_cenc_example :
    run 0x4000 example1 (fun t => (t.rsp, t.ob, t.ib, t.vfyr)) = some (some 0x0007, frame1, [], 0x00) := by decide
theorem test_cenc_outer_mod :
    run 0x4000 (operands 0xF9 0x00 0x00 0x00 0x00) (fun t => (t.rsp, t.ob)) =
      some (some 0x0000, [0x02, 0x06, 0x01, 0xF9, 0x00, 0x00, 0x00, 0x00, 0x00]) := by decide
theorem test_cenc_xor : run 0x4000 { example1 with csalg := 0x01 } (·.rsp) = some (some 0x00F7) := by decide
theorem test_cenc_operand_missing :
    run 0x4000 { example1 with opndv := 0x0F } (fun t => (t.rsp, t.flt, t.ob)) = some (some 0x8300, 0x04, []) := by decide
theorem test_cvfy_stx_not_covered :
    run 0x4100 (profiled (0xAA :: frame1.tail)) (fun t => (t.rsp, t.vfyr)) = some (some 0x0001, 0x81) := by decide
theorem test_cvfy_twos_frame_under_xor :
    run 0x4100 (profiledXor frame1) (fun t => (t.rsp, t.vfyr, t.flt)) = some (some 0x0000, 0x80, 0x00) := by decide

/-! ### Nine-pin codec (95_test_vectors.md 2.4) -/

theorem test_nenc_two : run 0x4800 (holding [0x20, 0x01]) (fun t => (t.rsp, t.ob)) = some (some 0x0021, [0x20, 0x01, 0x21]) := by
  decide
theorem test_nenc_three :
    run 0x4800 { holding [0x24, 0x31, 0x0A] with ob := frame1 } (fun t => (t.rsp, t.ob, t.oblen)) =
      some (some 0x001F, [0x24, 0x31, 0x0A, 0x1F], 0x04) := by decide
theorem test_nvfy_mismatch :
    run 0x4900 (holding [0xFF, 0xFF, 0xFF]) (fun t => (t.rsp, t.vfyr)) = some (some 0x0000, 0x80) := by decide
theorem test_nvfy_four :
    run 0x4900 (holding [0x20, 0x01, 0x21, 0x00]) (fun t => (t.rsp, t.vfyr)) = some (some 0x0001, 0x81) := by decide

/-! ### Classifier (95_test_vectors.md 2.5, 2.7) -/

theorem test_clsfy_busy : run 0x5000 (profiled [0x06, 0x04]) (fun t => (t.rsp, t.classr)) = some (some 0x0003, 0x83) := by decide
theorem test_clsfy_no_busy_byte :
    run 0x5000 { profiled [] with profv := 0x07 } (fun t => (t.rsp, t.flt, t.classr)) = some (some 0x8300, 0x04, 0x00) := by
  decide

/-! ### Timecode decoder (95_test_vectors.md 2.6, P10) -/

theorem test_tcdec_bcd_or_binary :
    run 0x6000 (holding [0x0C, 0x22, 0x38, 0x07]) timeSeen = some (some 0x0083, 0x83, [0x0C, 0x16, 0x26, 0x07]) ∧
      run 0x6000 (strictly (holding [0x0C, 0x22, 0x38, 0x07])) timeSeen =
        some (some 0x0085, 0x85, [0x0C, 0x22, 0x38, 0x07]) := by decide
theorem test_tcdec_rows :
    run 0x6000 (holding [0xB2, 0x2E, 0x07]) timeSeen = some (some 0x0081, 0x81, [0x0C, 0x22, 0x38, 0x07]) ∧
      run 0x6000 (holding [0x07, 0x2E, 0x32]) timeSeen = some (some 0x0087, 0x87, [0x0C, 0x22, 0x38, 0x07]) ∧
      run 0x6000 (holding [0x5F, 0xBE, 0xDE]) timeSeen = some (some 0x0080, 0x80, [0, 0, 0, 0]) ∧
      run 0x6000 (holding []) timeSeen = some (some 0x0088, 0x88, [0, 0, 0, 0]) ∧
      run 0x6000 (holding [0x00, 0x00, 0x00, 0x00, 0x05]) timeSeen = some (some 0x0081, 0x81, [0, 0, 0, 0]) := by decide
theorem test_tccand_binary :
    run 0x6103 (holding [0x0C, 0x22, 0x38, 0x07]) timeSeen = some (some 0x0085, 0x85, [0x0C, 0x22, 0x38, 0x07]) := by decide
theorem test_tccand_no_screen :
    run 0x6104 (holding [0x00, 0x00, 0x00]) timeSeen = some (some 0x0087, 0x87, [0, 0, 0, 0]) := by decide

/-! ### Fault priority and accumulation (95_test_vectors.md 2.7; 60_exceptions.md R233, R235) -/

theorem test_decode_fault_first : run 0x4001 State.reset (fun t => (t.rsp, t.flt)) = some (some 0x8100, 0x01) := by decide
theorem test_not_configured_before_length :
    run 0x4100 State.reset (fun t => (t.rsp, t.flt)) = some (some 0x8300, 0x04) := by decide
theorem test_flt_accumulates : run 0x7100 { State.reset with flt := 0x02 } (·.flt) = some 0x22 := by decide
theorem test_reset_input :
    seen (fun t => (t.rsp, t.flt, t.ib, t.inputs)) (step { holding frame1 with flt := 0x3F, inputs := [.rst, .op 0] }) =
      some (none, 0x00, [], [.op 0]) := by decide

/-! ### Witnesses: a state and operands that meet the hypotheses of each statement, clause by clause -/

/-- A state in which every kind of register holds something, about to verify the frame in `IB`. -/
def full : State where
  profv := 0x0F
  csalg := 0x00
  ackb := 0x04
  nackb := 0x05
  busyb := 0x06
  opndv := 0x1F
  ua2 := 0x01
  bt := 0x00
  cmd := 0x61
  ctrl := 0x10
  data := 0x80
  ib := frame1
  ob := frame1
  vfyr := 0x81
  classr := 0x84
  tcstat := 0x81
  tch := 0x17
  tcm := 0x3B
  tcs := 0x3B
  tcf := 0x1D
  flt := 0x3F
  params := Params.taken
  inputs := [.op 0x4100]
  rsp := some 0x8600

theorem test_witness_StepKeepsInvariant :
    ∃ s t, Invariant s ∧ s.ob = frame1 ∧ s.tcstat = 0x81 ∧ step s = .next t :=
  ⟨full, _,
    { params_legal := by decide
      memory_wf := by decide
      profv_reserved := by decide
      csalg_reserved := by decide
      opndv_reserved := by decide
      unwritten_zero := by unfold UnwrittenZero; decide
      ob_packet := .inr (.inl ⟨.twos, 0x01, 0x00, 0x61, 0x10, 0x80, by decide⟩)
      vfyr_legal := by decide
      classr_legal := by decide
      time_legal := by unfold TimeRegsLegal; decide
      flt_reserved := by decide
      rsp_form := fun r h => .inr ⟨6, by decide, by decide, by
        have h : (0x8600 : RspWord) = r := Option.some.inj h
        exact h ▸ by decide⟩ }, rfl, rfl, rfl⟩
theorem test_witness_StepRunsTheDecodedOperation :
    (holding frame1 |> presentWord 0x7208).inputs = .op 0x7208 :: [] ∧ decode 0x7208 = .ok (.rdib 0x08) := by decide
theorem test_witness_IdleBlockKeepsItsState : example1.inputs = [] := by decide
theorem test_witness_EncodeGivesTheDecodedWord : decode 0x61FF = .ok (.tccand 0xFF) := by decide
theorem test_witness_ReservedWordRaisesIllegalOp :
    (∀ o ∈ [0x02#8, 0x0F#8, 0x14#8, 0x1F#8, 0x25#8, 0x2F#8, 0x33#8, 0x3F#8, 0x42#8, 0x47#8, 0x4A#8, 0x4F#8, 0x51#8, 0x5F#8,
        0x62#8, 0x6F#8, 0x73#8, 0xFF#8], decode (o ++ 0x00#8) = .error .illegalOp) ∧
      decode (0x60#8 ++ 0xFF#8) = .error .illegalOp ∧ (decode (0x24#8 ++ 0xFF#8)).toOption.isSome ∧
      (decode (0x72#8 ++ 0x00#8)).toOption.isSome ∧ (decode (0x60#8 ++ 0x00#8)).toOption.isSome := by decide
theorem test_witness_FaultChangesOnlyItsFltBit :
    (∃ t, acceptWord 0x4000 State.reset = .next t ∧ t.rsp = some 0x8300 ∧ faulted 0x8300 = true) ∧
      (∃ t, acceptWord 0x4000 example1 = .next t ∧ t.rsp = some 0x0007 ∧ faulted 0x0007 = false) ∧
      ∃ t, acceptWord 0x0100 { example1 with flt := 0x3F } = .next t ∧ t.rsp = some 0x0000 ∧ t.flt = 0x00 :=
  ⟨⟨_, rfl, rfl, rfl⟩, ⟨_, rfl, rfl, rfl⟩, ⟨_, rfl, rfl, rfl⟩⟩
theorem test_witness_StickyBitsStayUntilReset :
    ∃ s t, step s = .next t ∧ s.inputs.head? ≠ some .rst ∧ s.inputs.head? ≠ some (.op 0x0100) ∧
      s.flt.getLsbD 5 = true ∧ s.profv.getLsbD 3 = true ∧ s.opndv.getLsbD 4 = true :=
  ⟨{ example1 with flt := 0x20, inputs := [.op 0x0000] }, _, rfl, by decide⟩
theorem test_witness_FaultsOfEachOperation :
    ∃ t, exec .cvfy (profiled []) = .next t ∧ t.rsp = some (rspFault .lengthError) := ⟨_, rfl, rfl⟩
theorem test_witness_OperationsWriteOnlyTheirWriteSet :
    ∃ t, exec .cenc example1 = .next t ∧ t.rsp = some 0x0007 ∧ faulted 0x0007 = false ∧ Instr.cenc ≠ .srst :=
  ⟨_, rfl, rfl, rfl, by decide⟩
theorem test_witness_OperationsWriteOnlyTheirWriteSet_bytes_and_bits :
    (∃ t, exec (.ibpush 0x22) (holding [0x10]) = .next t ∧ t.rsp = some 0x0002 ∧ 0 < (holding [0x10]).ib.length) ∧
      (∃ t, exec (.setbusy 0x06) State.reset = .next t ∧ t.rsp = some 0x0000 ∧ profvBitOf (.setbusy 0x06) ≠ some 2) ∧
      ∃ t, exec (.setua2 0x01) State.reset = .next t ∧ t.rsp = some 0x0000 ∧ opndvBitOf (.setua2 0x01) ≠ some 1 :=
  ⟨⟨_, rfl, rfl, by decide⟩, ⟨_, rfl, rfl, by decide⟩, ⟨_, rfl, rfl, by decide⟩⟩
theorem test_witness_InputBufferChangesOnlyByItsOperations :
    ∀ i ∈ [Instr.ibclr, .ibpush 0x06, .ob2ib, .srst], seen (fun t => decide (t.ib ≠ [0xAA])) (exec i (holding [0xAA])) = some true := by
  decide
theorem test_witness_ParametersNeverChange :
    ∃ t, step { strictly example1 with inputs := [.rst] } = .next t ∧ t.params.bcdStrict = true := ⟨_, rfl, rfl⟩
theorem test_witness_NopDoesNothing : (0x01 : Byte) ≠ 0 ∧ decode (0x00#8 ++ 0x01#8) = .error .illegalOp := by decide
theorem test_witness_SrstResetsEverything : (0xFF : Byte) ≠ 0 ∧ decode (0x01#8 ++ 0xFF#8) = .error .illegalOp := by decide
theorem test_witness_SetalgSelectsTheAlgorithm :
    (0x00#8).toNat ≤ 1 ∧ (0x01#8).toNat ≤ 1 ∧ 1 < (0x02#8).toNat ∧ 1 < (0xFF#8).toNat := by decide
theorem test_witness_IbpushAppendsOrOverflows :
    (smallest frame1.tail).ib.length < (smallest frame1.tail).params.ibcap ∧
      (smallest frame1).ib.length = (smallest frame1).params.ibcap := by decide
theorem test_witness_RdregAnswersTheRegister :
    (∀ n ∈ [0x05#8, 0x12#8, 0xFF#8], ∀ r ∈ [RegSel.reg .busyb, .iblen, .oblen, .reg .flt], regNumber r ≠ n) ∧
      regOfNumber 0x05 = none := by decide
theorem test_witness_RdobAnswersTheOutputByte :
    (0x08#8).toNat < frame1.length ∧ frame1.length ≤ (0x09#8).toNat := by decide
theorem test_witness_RdibAnswersTheInputByte :
    (0x08#8).toNat < (holding frame1).ib.length ∧ (holding frame1).ib.length ≤ (0x09#8).toNat := by decide
theorem test_witness_IbloadThenRdibAnswersTheBytes :
    frame1.length ≤ (smallest []).params.ibcap ∧ (smallest []).params.Legal ∧ 8 < frame1.length := by decide
theorem test_witness_ReadBacksCommute :
    (∃ t, exec (.rdreg 0x10) (holding [0x10, 0x22]) = .next t ∧ t.rsp = some 0x0002 ∧ faulted 0x0002 = false) ∧
      ∃ u, exec (.rdib 0x01) (holding [0x10, 0x22]) = .next u ∧ u.rsp = some 0x0022 ∧ faulted 0x0022 = false :=
  ⟨⟨_, rfl, rfl, rfl⟩, ⟨_, rfl, rfl, rfl⟩⟩
theorem test_witness_CencBuildsTheFrame :
    example1.profv.getLsbD 0 = true ∧ example1.opndv.extractLsb' 0 5 = 0b11111#5 ∧ example1.csalg.getLsbD 0 = false ∧
      (profiledXor []).csalg.getLsbD 0 = true ∧ State.reset.profv.getLsbD 0 = false ∧ (0x0F#8).extractLsb' 0 5 ≠ 0b11111#5 := by
  decide
theorem test_witness_CvfyChecksTheNinthByte :
    State.reset.profv.getLsbD 0 = false ∧ (profiled frame1.tail).profv.getLsbD 0 = true ∧ (profiled frame1.tail).ib.length ≠ 9 ∧
      (profiled frame1).ib = [0x02, 0x06, 0x01, 0x01, 0x00, 0x61, 0x10, 0x80, 0x07] := by decide
theorem test_witness_CartRoundTripVerifies : example1.profv.getLsbD 0 = true ∧ example1.opndv = 0x1F := by decide
theorem test_witness_SingleByteChangeBreaksTheFrame :
    frame1.length = 9 ∧ cartOk .twos frame1 = true ∧ frame1[8]? ≠ some 0x08 ∧
      cartOk .xor [0x02, 0x06, 0x01, 0x01, 0x00, 0x61, 0x10, 0x80, 0xF7] = true := by decide
theorem test_witness_NencBuildsThePacket :
    (holding [0x20, 0x01]).ib = [0x20, 0x01] ∧ (holding [0x24, 0x31, 0x0A]).ib = [0x24, 0x31, 0x0A] ∧
      (holding [0x20]).ib.length ≠ 2 ∧ (holding [0x01, 0x02, 0x03, 0x00]).ib.length ≠ 3 := by decide
theorem test_witness_NvfyChecksTheLastByte :
    (holding [0x20, 0x01, 0x21]).ib = [0x20, 0x01, 0x21] ∧ (holding [0x24, 0x31, 0x0A, 0x1F]).ib = [0x24, 0x31, 0x0A, 0x1F] ∧
      (holding [0x20, 0x01]).ib.length ≠ 3 ∧ (holding [0, 0, 0, 0, 0]).ib.length ≠ 4 := by decide
theorem test_witness_NinePinRoundTripVerifies : [0x20#8, 0x01#8].length = 2 ∧ State.reset.params.Legal := by decide
theorem test_witness_NinePinReadsNoProfile : Reg.csalg ∈ [Reg.profv, .csalg, .ackb, .nackb, .busyb, .opndv] := by decide
theorem test_witness_ClsfyAnswersTheClass :
    State.reset.profv.extractLsb' 1 3 ≠ 0b111#3 ∧ (0x07#8).extractLsb' 1 3 ≠ 0b111#3 ∧
      (profiled []).profv.extractLsb' 1 3 = 0b111#3 ∧ (0x0E#8).extractLsb' 1 3 = 0b111#3 := by decide
theorem test_witness_EqualProfileBytesEarlierTestWins :
    classify [0x05] 0x05 0x05 0x06 = .ack ∧ classify [0x06] 0x04 0x06 0x06 = .nack ∧ (0x06 : Byte) ≠ 0x04 ∧
      classify [0x04] 0x04 0x05 0x04 = .ack := by decide
theorem test_witness_PackedCandidateFields : [0x32#8, 0x2E#8].length < 3 ∧ ([] : Buffer).length < 3 := by decide
theorem test_witness_FourByteCandidateFields :
    [0x12#8, 0x34#8, 0x56#8].length < 4 ∧ (9 < (0x0C#8).toNat / 16 ∨ 9 < (0x0C#8).toNat % 16) ∧
      ¬(9 < (0x99#8).toNat / 16 ∨ 9 < (0x99#8).toNat % 16) := by decide
theorem test_witness_TccandRunsOneCandidate :
    (0x00#8).toNat < 1 ∧ 4 < (0x05#8).toNat ∧
      (0x04#8, Candidate.reversed) ∈ [(0x01#8, Candidate.packed), (0x02#8, .bcd), (0x03#8, .binary), (0x04#8, .reversed)] := by
  decide
theorem test_witness_SentinelAnswersExactly :
    run 0x6000 (holding [0x91]) (·.rsp) = some (some 0x0088) ∧ run 0x6000 (holding [0xFF, 0xFF]) (·.rsp) = some (some 0x0088) := by
  decide
theorem test_witness_CandidatesRecoverTheSpecTime :
    (holding [0x32, 0x2E, 0x07]).ib = [0x32, 0x2E, 0x07] ∧ (holding [0x00, 0x00, 0x60]).ib = [0x00, 0x00, 0x60] := by decide
theorem test_witness_BinaryNeverWinsUnlessStrict :
    ∃ t, exec .tcdec (holding [0x17, 0x3B, 0x3B, 0x1D]) = .next t ∧
      (holding [0x17, 0x3B, 0x3B, 0x1D]).params.bcdStrict = false := ⟨_, rfl, rfl⟩
theorem test_witness_ChainWinnerAgreesWithTccand :
    ∃ t, exec .tcdec (holding [0x07, 0x2E, 0x32]) = .next t ∧ t.tcstat = BitVec.ofNat 8 (0x81 + 2 * (4 - 1)) := ⟨_, rfl, rfl⟩

/-- The device after a reset. -/
def device : Device := { block := State.reset, phase := .ready, accepted := 0 }

theorem test_witness_ResetInputResetsTheDevice :
    acceptsAt { rst := false, opValid := true, opWord := 0x0000 } device = true ∧
      acceptsAt { rst := true, opValid := true, opWord := 0x0000 } device = false := by decide
theorem test_witness_ResetAbandonsTheOperation :
    ({ device with phase := .busy 0x4000 3 } : Device).phase = .busy 0x4000 3 := by decide
theorem test_witness_AcceptedOperationIsAnsweredOnce :
    acceptsAt { rst := false, opValid := true, opWord := 0x3110 } device = true ∧
      acceptsAt { rst := false, opValid := true, opWord := 0x3110 } { device with phase := .answer 0x0001 } = false := by decide
theorem test_witness_PseudoOperationsExpand : 1 ≤ 8 ∧ expand (.rdpkt 2) = [.rdob 0x00, .rdob 0x01] := by decide

end Sys2Proof.Tests
end

section
/-! PROOFS. The statements of 10_state.md: the values after reset (R40), the register numbers (R22), the
sticky bits (R39, R121), the write sets (R41) and the invariant (R23 to R39). -/

namespace Sys2Proof.Machine

/-! ### Reset -/

/-- The registers and buffers have the values of R40 after a reset from any state. -/
theorem atReset_toReset (s : State) : AtReset s.toReset := ⟨read_toReset s, rfl, rfl⟩

/-- The state after reset is what a reset makes of it. -/
theorem reset_eq_toReset : State.reset = State.reset.toReset := rfl

/-- Settles O1: the state after reset is the result of a reset. -/
theorem resetClearsRegistersAndBuffers : Obligations.ResetClearsRegistersAndBuffers := by
  unfold Obligations.ResetClearsRegistersAndBuffers
  rw [reset_eq_toReset]
  exact atReset_toReset State.reset

/-- A reset leaves the invariant, whatever the state before it, if the parameters are legal. -/
theorem invariant_toReset {s : State} (hp : s.params.Legal) : Invariant s.toReset where
  params_legal := hp
  memory_wf := memory_wf_toReset s
  profv_reserved := by simp
  csalg_reserved := by simp
  opndv_reserved := by simp
  unwritten_zero := by simp [UnwrittenZero]
  ob_packet := .inl rfl
  vfyr_legal := .inl rfl
  classr_legal := .inl rfl
  time_legal := by simp [TimeRegsLegal]
  flt_reserved := by simp
  rsp_form := by simp

/-- Settles O2: the state after reset is the result of a reset, with the legal parameters of R6. -/
theorem resetMeetsInvariant : Obligations.ResetMeetsInvariant := by
  unfold Obligations.ResetMeetsInvariant
  rw [reset_eq_toReset]
  exact invariant_toReset (by decide)

/-! ### Register numbers -/

/-- A register is read back from its number (R22). -/
theorem regOfNumber_regNumber (r : RegSel) : regOfNumber (regNumber r) = some r := by
  rcases r with r | _ | _
  · cases r <;> rfl
  · rfl
  · rfl

/-- The numbers that name no register are those R22 lists after the map. -/
theorem regOfNumber_eq_none_iff (n : Byte) : regOfNumber n = none ↔
    (0x05 ≤ n ∧ n ≤ 0x07) ∨ n = 0x0E ∨ n = 0x0F ∨ (0x12 ≤ n ∧ n ≤ 0x17) ∨ 0x20 ≤ n := by
  revert n
  decide

/-- Settles O28, over the registers in one direction and the 256 numbers in the other. -/
theorem registerNumbersOfTheMap : Obligations.RegisterNumbersOfTheMap :=
  ⟨regOfNumber_regNumber, regOfNumber_eq_none_iff, rfl, rfl, rfl, rfl⟩

/-! ### Written-mask bits -/

/-- The byte with the one bit that an operation has in a written-mask, if it has one. -/
def maskBit : Option Nat → Byte
  | some k => .twoPow 8 k
  | none => 0

@[simp] theorem or_maskBit_none (x : Byte) : x ||| maskBit none = x := BitVec.or_zero

/-- Setting one bit of a written-mask leaves every other bit. -/
theorem getLsbD_or_maskBit (x : Byte) {o : Option Nat} {k : Nat} (h : o ≠ some k) :
    (x ||| maskBit o).getLsbD k = x.getLsbD k := by
  cases o with
  | none => simp
  | some j => simp_all [maskBit]

/-- A completed operation but SRST sets its own bit in the two written-masks, and leaves `FLT`. -/
theorem written_masks {i : Instr} {s u : State} (h : Written i s u) (hi : i ≠ .srst) :
    u.profv = s.profv ||| maskBit (profvBitOf i) ∧ u.opndv = s.opndv ||| maskBit (opndvBitOf i) ∧ u.flt = s.flt := by
  cases i <;> simp only [Written] at h
  case srst => exact absurd rfl hi
  case setalg => obtain ⟨-, rfl⟩ := h; exact ⟨rfl, (or_maskBit_none _).symm, rfl⟩
  case setack | setnack | setbusy => subst h; exact ⟨rfl, (or_maskBit_none _).symm, rfl⟩
  case setua2 | setbt | setcmd | setctrl | setdata => subst h; exact ⟨(or_maskBit_none _).symm, rfl, rfl⟩
  case ibpush | nenc => obtain ⟨-, rfl⟩ := h; simp [profvBitOf, opndvBitOf]
  case cvfy | nvfy | clsfy => obtain ⟨_, rfl⟩ := h; simp [profvBitOf, opndvBitOf]
  case tcdec | tccand => obtain ⟨_, -, rfl⟩ := h; simp [profvBitOf, opndvBitOf]
  all_goals subst h; simp [profvBitOf, opndvBitOf]

/-! ### The frame of an operation -/

/-- The registers of an operation's write set (R41). -/
def writeSet : Instr → List RegSel
  | .setalg _ => [.reg .csalg, .reg .profv]
  | .setack _ => [.reg .ackb, .reg .profv]
  | .setnack _ => [.reg .nackb, .reg .profv]
  | .setbusy _ => [.reg .busyb, .reg .profv]
  | .setua2 _ => [.reg .ua2, .reg .opndv]
  | .setbt _ => [.reg .bt, .reg .opndv]
  | .setcmd _ => [.reg .cmd, .reg .opndv]
  | .setctrl _ => [.reg .ctrl, .reg .opndv]
  | .setdata _ => [.reg .data, .reg .opndv]
  | .ibclr | .ibpush _ | .ob2ib => [.iblen]
  | .cenc | .nenc => [.oblen]
  | .cvfy | .nvfy => [.reg .vfyr]
  | .clsfy => [.reg .classr]
  | .tcdec | .tccand _ => [.reg .tcstat, .reg .tch, .reg .tcm, .reg .tcs, .reg .tcf]
  | .nop | .srst | .rdreg _ | .rdob _ | .rdib _ => []

/-- A completed operation but SRST writes no register outside its write set. -/
theorem written_regsKept {i : Instr} {s u : State} (h : Written i s u) (hi : i ≠ .srst) (w : Option RspWord) :
    RegsKeptBut (writeSet i) s (u.setRsp w) := by
  cases i <;> simp only [Written] at h
  case srst => exact absurd rfl hi
  case nop | rdreg | rdob | rdib => subst h; exact regsKept_setRsp _ _
  case setalg => obtain ⟨-, rfl⟩ := h; exact regsKept_setMarked _ _ _ _ _ _
  case ibclr | ob2ib => subst h; exact regsKept_setIb _ _ _
  case ibpush => obtain ⟨-, rfl⟩ := h; exact regsKept_setIb _ _ _
  case cenc => subst h; exact regsKept_setOb _ _ _
  case nenc => obtain ⟨-, rfl⟩ := h; exact regsKept_setOb _ _ _
  case cvfy | nvfy | clsfy => obtain ⟨_, rfl⟩ := h; exact regsKept_writeReg _ _ _ _
  case tcdec | tccand => obtain ⟨_, -, rfl⟩ := h; exact regsKept_tcCommit _ _ _
  all_goals subst h; exact regsKept_setMarked _ _ _ _ _ _

/-- A completed operation leaves `IB` unless it is one of the four that write it (R137). -/
theorem written_ib {i : Instr} {s u : State} (h : Written i s u) (hpush : ∀ b, i ≠ .ibpush b) (hclr : i ≠ .ibclr)
    (hcopy : i ≠ .ob2ib) (hi : i ≠ .srst) : u.ib = s.ib := by
  cases i <;> simp only [Written] at h
  case srst | ibclr | ob2ib => contradiction
  case ibpush b => exact absurd rfl (hpush b)
  case setalg => obtain ⟨-, rfl⟩ := h; exact setMarked_ib ..
  case nenc => obtain ⟨-, rfl⟩ := h; exact setOb_ib ..
  case cvfy | nvfy | clsfy => obtain ⟨_, rfl⟩ := h; exact writeReg_ib ..
  case tcdec | tccand => obtain ⟨_, -, rfl⟩ := h; exact tcCommit_ib ..
  all_goals subst h; rfl

/-- A completed operation leaves `OB` unless it builds a packet or is SRST. -/
theorem written_ob {i : Instr} {s u : State} (h : Written i s u) (hc : i ≠ .cenc) (hn : i ≠ .nenc)
    (hi : i ≠ .srst) : u.ob = s.ob := by
  cases i <;> simp only [Written] at h
  case srst | cenc | nenc => contradiction
  case setalg => obtain ⟨-, rfl⟩ := h; exact setMarked_ob ..
  case ibpush => obtain ⟨-, rfl⟩ := h; exact setIb_ob ..
  case cvfy | nvfy | clsfy => obtain ⟨_, rfl⟩ := h; exact writeReg_ob ..
  case tcdec | tccand => obtain ⟨_, -, rfl⟩ := h; exact tcCommit_ob ..
  all_goals subst h; rfl

/-- An operation whose response is not a faulted one responds in the state its rule writes. -/
theorem written_of_not_faulted {i : Instr} {s t : State} {r : RspWord} (h : exec i s = .next t) (hr : t.rsp = some r)
    (hf : faulted r = false) : ∃ d u, Written i s u ∧ t = u.setRsp (some (rspDone d)) := by
  rcases exec_cases i s with ⟨c, hc⟩ | ⟨d, u, hd, hw⟩
  · obtain rfl := (raise_next ..).mp (hc.symm.trans h)
    obtain rfl : rspFault c = r := Option.some.inj hr
    simp at hf
  · exact ⟨d, u, hw, (respond_next ..).mp (hd.symm.trans h)⟩

/-- Settles O16, clause by clause from what the operation's rule writes. -/
theorem operationsWriteOnlyTheirWriteSet : Obligations.OperationsWriteOnlyTheirWriteSet := by
  intro i s t r hx hr hf hi
  obtain ⟨d, u, hw, rfl⟩ := written_of_not_faulted hx hr hf
  obtain ⟨hprofv, hopndv, -⟩ := written_masks hw hi
  refine ⟨written_regsKept hw hi _, fun k hk => ?_, fun k hk => ?_, ?_, fun hpush hclr hcopy => ?_,
    fun hc hn => ?_, ?_⟩
  · rw [setRsp_profv, hprofv, getLsbD_or_maskBit _ hk]
  · rw [setRsp_opndv, hopndv, getLsbD_or_maskBit _ hk]
  · rintro b rfl k hk
    obtain ⟨-, rfl⟩ := hw
    exact ib_append_read_below s b k hk
  · exact (setRsp_ib ..).trans (written_ib hw hpush hclr hcopy hi)
  · exact (setRsp_ob ..).trans (written_ob hw hc hn hi)
  · obtain ⟨hparams, hinputs⟩ := written_outside hw
    exact ⟨hparams, hinputs⟩

/-! ### Decoding -/

/-- A row of the map decodes from its own opcode byte and operand byte only. -/
theorem decodeParts_ok {a b : Byte} {i : Instr} (h : decodeParts a b = .ok i) :
    a = i.opcByte ∧ b = i.operand.getD 0x00 := by
  unfold decodeParts at h
  split at h
  case h_1 | h_2 | h_12 | h_14 | h_15 | h_16 | h_17 | h_18 | h_19 | h_20 =>
    obtain ⟨rfl, rfl⟩ := (noOperand_ok ..).mp h
    exact ⟨rfl, rfl⟩
  case h_25 => cases h
  all_goals cases h; exact ⟨rfl, rfl⟩

/-- An operation is decoded from its own word only (R89). -/
theorem encode_of_decode {w : OpWord} {i : Instr} (h : decode w = .ok i) : encode i = w := by
  obtain ⟨hopc, himm⟩ := decodeParts_ok h
  rw [encode_eq_append, ← hopc, ← himm, ← word_eq_append]

/-! ### Sticky bits -/

/-- Settles O14: what a step does between resets is to set bits, of `FLT` by a fault and of a written-mask by
a completed operation. -/
theorem stickyBitsStayUntilReset : Obligations.StickyBitsStayUntilReset := by
  intro s t k h hrst hsrst
  rcases step_cases h with ⟨-, rfl⟩ | ⟨rest, hin, -⟩ | ⟨w, rest, hin, ha⟩
  · exact ⟨id, id, id⟩
  · simp [hin] at hrst
  · rcases acceptWord_cases w (s.setInputs rest) with ⟨c, hc⟩ | ⟨i, d, u, hd, hx, hw⟩
    · obtain rfl := (raise_next ..).mp (hc.symm.trans ha)
      simp +contextual
    · obtain rfl := (respond_next ..).mp (hx.symm.trans ha)
      have hi : i ≠ .srst := by
        rintro rfl
        exact hsrst (by rw [hin, ← encode_of_decode hd]; rfl)
      obtain ⟨hprofv, hopndv, hflt⟩ := written_masks hw hi
      simp +contextual [hprofv, hopndv, hflt]

/-! ### Written-masks and the registers they mark -/

/-- The written-mask of a profile or operand register, and its bit there (R23, R26). -/
def markOf : Reg → Option (Reg × Nat)
  | .csalg => some (.profv, 0)
  | .ackb => some (.profv, 1)
  | .nackb => some (.profv, 2)
  | .busyb => some (.profv, 3)
  | .ua2 => some (.opndv, 0)
  | .bt => some (.opndv, 1)
  | .cmd => some (.opndv, 2)
  | .ctrl => some (.opndv, 3)
  | .data => some (.opndv, 4)
  | .profv | .opndv | .vfyr | .classr | .tcstat | .tch | .tcm | .tcs | .tcf | .flt => none

/-- The clause of the invariant on unwritten registers, one register at a time. -/
theorem unwrittenZero_iff (s : State) : UnwrittenZero s ↔
    ∀ r mask k, markOf r = some (mask, k) → (s.readReg mask).getLsbD k = false → s.readReg r = 0 := by
  constructor
  · rintro ⟨halg, hack, hnack, hbusy, hua2, hbt, hcmd, hctrl, hdata⟩ r mask k hm
    cases r <;> cases hm <;> assumption
  · intro h
    exact ⟨h .csalg _ _ rfl, h .ackb _ _ rfl, h .nackb _ _ rfl, h .busyb _ _ rfl, h .ua2 _ _ rfl, h .bt _ _ rfl,
      h .cmd _ _ rfl, h .ctrl _ _ rfl, h .data _ _ rfl⟩

/-- A mark is a bit of a byte, and a written-mask has no mark itself. -/
theorem markOf_some {r mask : Reg} {k : Nat} (h : markOf r = some (mask, k)) : k < 8 ∧ markOf mask = none := by
  cases r <;> cases h <;> exact ⟨by decide, rfl⟩

/-- A `SET` operation marks the register it writes, so an unmarked register still holds its reset value. -/
theorem unwrittenZero_setMarked {s : State} {r mask : Reg} {k : Nat} (hm : markOf r = some (mask, k)) (v : Byte)
    (h : UnwrittenZero s) : UnwrittenZero (s.setMarked r mask (.twoPow 8 k) v) := by
  rw [unwrittenZero_iff] at *
  intro q qmask j hq hbit
  obtain ⟨hk, hmask⟩ := markOf_some hm
  obtain ⟨-, hqmask⟩ := markOf_some hq
  have hq_ne : q ≠ mask := by rintro rfl; simp_all
  have hr_ne : qmask ≠ r := by rintro rfl; simp_all
  simp only [readReg_setMarked, if_neg hq_ne, if_neg hr_ne] at hbit ⊢
  by_cases hqr : q = r
  · obtain ⟨rfl, rfl⟩ : mask = qmask ∧ k = j := by simpa [hqr, hm] using hq
    simp [hk] at hbit
  · rw [if_neg hqr]
    apply h q qmask j hq
    by_cases hsame : qmask = mask
    · subst hsame
      simp_all
    · rwa [if_neg hsame] at hbit

/-! ### The invariant, one write at a time -/

/-- A reserved bit stays zero when a bit outside the reserved field is set. -/
theorem or_and_eq_zero {x y m : Byte} (hx : x &&& m = 0) (hy : y &&& m = 0) : (x ||| y) &&& m = 0 := by
  rw [BitVec.and_or_distrib_right, hx, hy]
  rfl

theorem invariant_setRsp {s : State} {w : Option RspWord} (hw : ∀ r, w = some r → ResponseForm r) (h : Invariant s) :
    Invariant (s.setRsp w) :=
  { h with rsp_form := hw }

theorem invariant_setInputs {s : State} (l : List HostInput) (h : Invariant s) : Invariant (s.setInputs l) :=
  { h with }

theorem invariant_setIb {s : State} {b : Buffer} (hb : Memory.wf (s.setIb b) = true) (h : Invariant s) :
    Invariant (s.setIb b) :=
  { h with memory_wf := hb }

theorem invariant_setOb {s : State} {b : Buffer} (hb : b.length = 3 ∨ b.length = 4 ∨ b.length = 9)
    (hp : HoldsPacket b) (h : Invariant s) : Invariant (s.setOb b) :=
  { h with memory_wf := memory_wf_setOb b h.memory_wf hb, ob_packet := hp }

/-- Fault entry sets one of the six bits of `FLT` (R39). -/
theorem invariant_faultBit {s : State} (c : FaultCode) (h : Invariant s) :
    Invariant (s.writeReg .flt (s.flt ||| faultBit c)) :=
  { h with flt_reserved := or_and_eq_zero h.flt_reserved (by cases c <;> decide) }

/-- The register reads 0x80 or 0x81 after a verification (R35). -/
theorem vfyrValue_legal (ok : Bool) : vfyrValue ok = 0x80 ∨ vfyrValue ok = 0x81 := by cases ok <;> decide

theorem invariant_vfyr {s : State} (ok : Bool) (h : Invariant s) : Invariant (s.writeReg .vfyr (vfyrValue ok)) :=
  { h with vfyr_legal := .inr (vfyrValue_legal ok) }

/-- The register reads 0x80 to 0x84 after a classification (R36). -/
theorem classValue_legal (c : RespClass) : 0x80 ≤ classValue c ∧ classValue c ≤ 0x84 := by cases c <;> decide

theorem invariant_classr {s : State} (c : RespClass) (h : Invariant s) :
    Invariant (s.writeReg .classr (classValue c)) :=
  { h with classr_legal := .inr (classValue_legal c) }

/-- A `SET` operation keeps the invariant; SETALG, if its operand has the one bit of `CSALG` alone. -/
theorem invariant_setMarked {s : State} {r mask : Reg} {k : Nat} {bit v : Byte} (hm : markOf r = some (mask, k))
    (hbit : bit = .twoPow 8 k) (hv : r = .csalg → v &&& 0xFE = 0) (h : Invariant s) :
    Invariant (s.setMarked r mask bit v) := by
  subst hbit
  have hzero := unwrittenZero_setMarked hm v h.unwritten_zero
  cases r <;> cases hm
  case csalg =>
    exact { h with
      profv_reserved := or_and_eq_zero h.profv_reserved (by decide)
      csalg_reserved := hv rfl
      unwritten_zero := hzero }
  case ackb | nackb | busyb =>
    exact { h with profv_reserved := or_and_eq_zero h.profv_reserved (by decide), unwritten_zero := hzero }
  case ua2 | bt | cmd | ctrl | data =>
    exact { h with opndv_reserved := or_and_eq_zero h.opndv_reserved (by decide), unwritten_zero := hzero }

/-- The operand of SETALG that is not refused has bit 0 alone (R112, R24). -/
theorem and_eq_zero_of_not_lt {n : Byte} (h : ¬(0x01 : Byte) < n) : n &&& 0xFE = 0 := by
  revert n
  decide

/-- A commit writes a status of R211 with a time in range where it found one, and zeros where not. -/
theorem timeRegsLegal_tcCommit (s : State) {r : TcResult} (hr : PassedResult r) : TimeRegsLegal (s.tcCommit r) := by
  cases r with
  | screened => simp [TimeRegsLegal]
  | noDecode => simp [TimeRegsLegal]
  | found k v =>
    obtain ⟨hh, hm, hs, hf⟩ := (tcValid_iff v).mp hr
    have hrange : v.h % 256 ≤ 23 ∧ v.m % 256 ≤ 59 ∧ v.s % 256 ≤ 59 ∧ v.f % 256 ≤ 29 := by omega
    cases k <;> simpa [TimeRegsLegal] using hrange

/-- A commit as one update of the five result registers (R211). -/
theorem tcCommit_eq (s : State) (r : TcResult) : s.tcCommit r =
    { s with
      tcstat := tcStatus r
      tch := BitVec.ofNat 8 (tcTime r).h
      tcm := BitVec.ofNat 8 (tcTime r).m
      tcs := BitVec.ofNat 8 (tcTime r).s
      tcf := BitVec.ofNat 8 (tcTime r).f } := rfl

theorem invariant_tcCommit {s : State} {r : TcResult} (hr : PassedResult r) (h : Invariant s) :
    Invariant (s.tcCommit r) := by
  have htime := timeRegsLegal_tcCommit s hr
  rw [tcCommit_eq] at htime ⊢
  exact { h with time_legal := htime }

/-! ### The invariant over operations and steps -/

theorem responseForm_rspDone (d : Byte) : ResponseForm (rspDone d) := .inl ⟨d, rfl⟩

theorem responseForm_rspFault (c : FaultCode) : ResponseForm (rspFault c) :=
  .inr ⟨faultNumber c, by cases c <;> decide, by cases c <;> decide, rspFault_eq c⟩

/-- CENC's frame has nine bytes (R154). -/
theorem length_frame (s : State) : s.frame.length = 9 := rfl

/-- What a completed operation's rule writes keeps the invariant. -/
theorem written_keeps_invariant {i : Instr} {s u : State} (hw : Written i s u) (h : Invariant s) : Invariant u := by
  cases i <;> simp only [Written] at hw
  case nop | rdreg | rdob | rdib => subst hw; exact h
  case srst => subst hw; exact invariant_toReset h.params_legal
  case setalg =>
    obtain ⟨hn, rfl⟩ := hw
    exact invariant_setMarked rfl rfl (fun _ => and_eq_zero_of_not_lt hn) h
  case ibclr => subst hw; exact invariant_setIb (memory_wf_clearIb h.memory_wf) h
  case ibpush =>
    obtain ⟨hcap, rfl⟩ := hw
    exact invariant_setIb (memory_wf_appendIb _ h.memory_wf hcap) h
  case ob2ib => subst hw; exact invariant_setIb (memory_wf_copyOb h.params_legal h.memory_wf) h
  case cenc =>
    subst hw
    exact invariant_setOb (by simp [length_frame]) (.inr (.inl ⟨_, _, _, _, _, _, rfl⟩)) h
  case nenc =>
    obtain ⟨hlen, rfl⟩ := hw
    refine invariant_setOb ?_ (.inr (.inr ⟨s.ib, hlen, rfl⟩)) h
    simp only [npPacket, List.length_append, List.length_singleton]
    omega
  case cvfy | nvfy => obtain ⟨ok, rfl⟩ := hw; exact invariant_vfyr ok h
  case clsfy => obtain ⟨c, rfl⟩ := hw; exact invariant_classr c h
  case tcdec | tccand => obtain ⟨r, hr, rfl⟩ := hw; exact invariant_tcCommit hr h
  all_goals subst hw; exact invariant_setMarked rfl rfl nofun h

/-- An accepted word keeps the invariant, whether its operation faults or completes. -/
theorem acceptWord_keeps_invariant {w : OpWord} {s t : State} (ha : acceptWord w s = .next t) (h : Invariant s) :
    Invariant t := by
  rcases acceptWord_cases w s with ⟨c, hc⟩ | ⟨i, d, u, -, hx, hw⟩
  · obtain rfl := (raise_next ..).mp (hc.symm.trans ha)
    exact invariant_setRsp (fun _ hr => Option.some.inj hr ▸ responseForm_rspFault c) (invariant_faultBit c h)
  · obtain rfl := (respond_next ..).mp (hx.symm.trans ha)
    exact invariant_setRsp (fun _ hr => Option.some.inj hr ▸ responseForm_rspDone d) (written_keeps_invariant hw h)

/-- Settles O3, by the three things a step can be: idle, a cycle of `rst`, an accepted word. -/
theorem stepKeepsInvariant : Obligations.StepKeepsInvariant := by
  intro s t h hstep
  rcases step_cases hstep with ⟨-, rfl⟩ | ⟨rest, -, rfl⟩ | ⟨w, rest, -, ha⟩
  · exact invariant_setRsp nofun h
  · exact invariant_toReset h.params_legal
  · exact acceptWord_keeps_invariant ha (invariant_setInputs rest h)

end Sys2Proof.Machine
end

section
/-! PROOFS. The statements of 30_encoding.md: decoding and encoding (R86 to R89), the answer to an accepted word
(R82, R83), the port (R81) and the assembler (R103, R104). -/

namespace Sys2Proof

/-! ### Encoding and decoding -/

/-- The decoder on an operation's own two bytes (R86). -/
theorem decodeParts_opcByte (i : Instr) : decodeParts i.opcByte (i.operand.getD 0x00) = .ok i := by
  cases i <;> rfl

/-- An operation is read back from its word. -/
theorem decode_encode (i : Instr) : decode (encode i) = .ok i := by
  rw [encode_eq_append, decode_append, decodeParts_opcByte]

/-- Settles O8: an operation's word is its opcode byte and its operand, and the decoder reads those. -/
theorem decodeReadsBackEncode : Obligations.DecodeReadsBackEncode := decode_encode

/-- Settles O9: the decoder selects a row from the row's own bytes only. -/
theorem encodeGivesTheDecodedWord : Obligations.EncodeGivesTheDecodedWord :=
  fun _ _ => Machine.encode_of_decode

/-- Settles O7: the eleven words are read back from their operations, or match no row. -/
theorem specWordsDecode : Obligations.SpecWordsDecode :=
  ⟨decode_encode .nop, decode_encode (.setack 0x04), decode_encode (.setcmd 0x61), decode_encode (.ibpush 0xAA),
    decode_encode .cenc, decode_encode .nvfy, decode_encode .clsfy, decode_encode (.tccand 0x02),
    decode_encode (.rdreg 0x1A), rfl, rfl⟩

/-- A word decodes to an operation exactly when its fields are the operation's opcode byte and operand. -/
theorem decode_ok_iff (w : OpWord) (i : Instr) :
    decode w = .ok i ↔ opc w = i.opcByte ∧ imm8Of w = i.operand.getD 0x00 := by
  constructor
  · exact Machine.decodeParts_ok
  · rintro ⟨ho, hi⟩
    rw [decode, ho, hi, decodeParts_opcByte]

/-- A no-operand row refuses an operand byte with IllegalOp alone (R87). -/
theorem noOperand_error {i : Instr} {b : Byte} {c : FaultCode} (h : noOperand i b = .error c) : c = .illegalOp := by
  unfold noOperand at h
  split at h <;> cases h
  rfl

/-- The only fault of the decoder is IllegalOp (R87). -/
theorem decode_error {w : OpWord} {c : FaultCode} (h : decode w = .error c) : c = .illegalOp := by
  unfold decode decodeParts at h
  split at h
  case h_1 | h_2 | h_12 | h_14 | h_15 | h_16 | h_17 | h_18 | h_19 | h_20 => exact noOperand_error h
  all_goals cases h
  rfl

/-! ### The rows of the opcode map -/

/-- The operation's row of the opcode map (R86): its opcode byte is matched, and where it has no operand its
second byte too. -/
def Instr.row (i : Instr) : OpRow :=
  ⟨i.mnemonic, i.opcByte ++ 0x00#8, 0xFF#8 ++ if i.operand = none then 0xFF#8 else 0x00#8⟩

/-- The operations in the order of the opcode map, with the operand 0x00 where they have one. -/
def Instr.all : List Instr :=
  [.nop, .srst, .setalg 0, .setack 0, .setnack 0, .setbusy 0, .setua2 0, .setbt 0, .setcmd 0, .setctrl 0, .setdata 0,
   .ibclr, .ibpush 0, .ob2ib, .cenc, .cvfy, .nenc, .nvfy, .clsfy, .tcdec, .tccand 0, .rdreg 0, .rdob 0, .rdib 0]

/-- The opcode map holds the operations' rows, in this order. -/
theorem opcodeMap_eq_rows : opcodeMap = Instr.all.map Instr.row := by decide

/-- Every operation has its row in the opcode map, whatever its operand. -/
theorem row_mem_opcodeMap (i : Instr) : i.row ∈ opcodeMap := by
  rw [opcodeMap_eq_rows]
  cases i <;> simp [Instr.all, Instr.row, Instr.opcByte, Instr.mnemonic, Instr.operand]

/-- No two rows have the same mnemonic. -/
theorem nodup_mnemonics : (opcodeMap.map OpRow.mnemonic).Nodup := by decide

/-- Two bytes are read back from the word they make. -/
theorem append_eq_append_iff (a b c d : Byte) : a ++ b = c ++ d ↔ a = c ∧ b = d := by
  constructor
  · intro h
    exact ⟨by simpa using congrArg opc h, by simpa using congrArg imm8Of h⟩
  · rintro ⟨rfl, rfl⟩
    rfl

/-- A row selects by the opcode byte, and by a zero second byte where it has no operand. -/
theorem row_selects_iff (i : Instr) (w : OpWord) :
    i.row.selects w = true ↔ opc w = i.opcByte ∧ (i.operand = none → imm8Of w = 0x00) := by
  have and_ff (b : Byte) : b &&& 0xFF#8 = b := BitVec.and_allOnes
  have hmask (m : Byte) : w &&& (0xFF#8 ++ m) = opc w ++ (imm8Of w &&& m) := by
    conv_lhs => rw [word_eq_append w, BitVec.and_append, and_ff]
  rw [OpRow.selects, beq_iff_eq, Instr.row, hmask, append_eq_append_iff, and_congr_right_iff]
  intro _
  split
  · next h => simp [h, and_ff]
  · next h => simp [h]

/-- Every word of an operation's row decodes, to an operation of the row. -/
theorem decodeParts_of_row (i : Instr) (b : Byte) (h : i.operand = none → b = 0x00) :
    ∃ j, decodeParts i.opcByte b = .ok j ∧ j.row = i.row := by
  cases i
  case nop | srst | ibclr | ob2ib | cenc | cvfy | nenc | nvfy | clsfy | tcdec =>
    obtain rfl := h rfl
    exact ⟨_, rfl, rfl⟩
  all_goals exact ⟨_, rfl, rfl⟩

/-- A row selects the words that decode to an operation of the row. -/
theorem row_selects_iff_decode (i : Instr) (w : OpWord) :
    i.row.selects w = true ↔ ∃ j, decode w = .ok j ∧ j.row = i.row := by
  constructor
  · intro h
    obtain ⟨ho, hb⟩ := (row_selects_iff i w).mp h
    rw [decode, ho]
    exact decodeParts_of_row i _ hb
  · rintro ⟨j, hd, hr⟩
    obtain ⟨ho, hb⟩ := (decode_ok_iff w j).mp hd
    rw [← hr, row_selects_iff]
    exact ⟨ho, fun hn => by rw [hb, hn]; rfl⟩

/-- The rows of the opcode map that select the word. -/
def selectedRows (w : OpWord) : List OpRow := opcodeMap.filter fun r => w &&& r.mask = r.matchWord

theorem mem_selectedRows (w : OpWord) (r : OpRow) :
    r ∈ selectedRows w ↔ ∃ i, decode w = .ok i ∧ i.row = r := by
  have hsel : r ∈ selectedRows w ↔ r ∈ opcodeMap ∧ r.selects w = true := by
    simp [selectedRows, OpRow.selects]
  rw [hsel]
  constructor
  · rintro ⟨hm, hs⟩
    rw [opcodeMap_eq_rows] at hm
    obtain ⟨i, -, rfl⟩ := List.mem_map.mp hm
    exact (row_selects_iff_decode i w).mp hs
  · rintro ⟨i, hd, rfl⟩
    exact ⟨row_mem_opcodeMap i, (row_selects_iff_decode i w).mpr ⟨i, hd, rfl⟩⟩

/-- A word that decodes is selected by one row, the operation's. -/
theorem selectedRows_of_ok {w : OpWord} {i : Instr} (h : decode w = .ok i) : selectedRows w = [i.row] := by
  have hnodup : (selectedRows w).Nodup := (List.Nodup.of_map _ nodup_mnemonics).filter _
  rw [← List.perm_singleton, List.perm_ext_iff_of_nodup hnodup (List.nodup_singleton _)]
  intro r
  rw [mem_selectedRows, h]
  simp [eq_comm]

/-- A reserved word is selected by no row. -/
theorem selectedRows_of_error {w : OpWord} {c : FaultCode} (h : decode w = .error c) : selectedRows w = [] := by
  rw [List.eq_nil_iff_forall_not_mem]
  intro r hr
  obtain ⟨i, hi, -⟩ := (mem_selectedRows w r).mp hr
  simp [h] at hi

/-- Rows are told apart by their mnemonics. -/
theorem row_eq_of_mnemonic_eq {i j : Instr} (h : i.mnemonic = j.mnemonic) : i.row = j.row :=
  List.inj_on_of_nodup_map nodup_mnemonics (row_mem_opcodeMap i) (row_mem_opcodeMap j) h

/-- Where a word decodes, the row that selects it is the one with the operation's mnemonic. -/
theorem row_selects_iff_mnemonic {w : OpWord} {j : Instr} (h : decode w = .ok j) (i : Instr) :
    i.row.selects w = true ↔ j.mnemonic = i.mnemonic := by
  rw [row_selects_iff_decode]
  constructor
  · rintro ⟨k, hk, hr⟩
    obtain rfl : j = k := Except.ok.inj (h.symm.trans hk)
    exact congrArg OpRow.mnemonic hr
  · intro hm
    exact ⟨j, h, row_eq_of_mnemonic_eq hm⟩

/-- A word decodes to an operation exactly when its row selects the word and its operand is in bits 7:0. -/
theorem decode_ok_iff_selects (w : OpWord) (i : Instr) :
    decode w = .ok i ↔ i.row.selects w = true ∧ ∀ b, i.operand = some b → b = imm8Of w := by
  rw [decode_ok_iff, row_selects_iff, and_assoc, and_congr_right_iff]
  intro _
  cases i.operand <;> simp [eq_comm]

/-- Settles O10, by what the decoder answers: the rows that select the word are the operation's, or none. -/
theorem decodeFollowsTheOpcodeMap : Obligations.DecodeFollowsTheOpcodeMap := by
  intro w
  change (selectedRows w).length ≤ 1 ∧ (selectedRows w = [] ↔ decode w = .error .illegalOp) ∧
    ∀ i, decode w = .ok i ↔ (selectedRows w).map (·.mnemonic) = [i.mnemonic] ∧ ∀ b, i.operand = some b → b = imm8Of w
  cases hd : decode w with
  | error c =>
    rw [selectedRows_of_error hd, decode_error hd]
    simp
  | ok j =>
    rw [selectedRows_of_ok hd]
    refine ⟨le_rfl, by simp, fun i => ?_⟩
    have hrow : [j.row].map (·.mnemonic) = [i.mnemonic] ↔ i.row.selects w = true := by
      rw [row_selects_iff_mnemonic hd]
      exact List.singleton_inj
    rw [hrow, ← hd, decode_ok_iff_selects]

/-! ### The reserved words -/

/-- The reserved words of R87, (a) by the opcode byte and (b) by the second byte. -/
def ReservedWord (o n : Byte) : Prop :=
  (0x02 ≤ o ∧ o ≤ 0x0F) ∨ (0x14 ≤ o ∧ o ≤ 0x1F) ∨ (0x25 ≤ o ∧ o ≤ 0x2F) ∨ (0x33 ≤ o ∧ o ≤ 0x3F) ∨
    (0x42 ≤ o ∧ o ≤ 0x47) ∨ (0x4A ≤ o ∧ o ≤ 0x4F) ∨ (0x51 ≤ o ∧ o ≤ 0x5F) ∨ (0x62 ≤ o ∧ o ≤ 0x6F) ∨ 0x73 ≤ o ∨
    (o ∈ [0x00#8, 0x01#8, 0x30#8, 0x32#8, 0x40#8, 0x41#8, 0x48#8, 0x49#8, 0x50#8, 0x60#8] ∧ n ≠ 0x00)

/-- A word that is not reserved is that of an operation of the map, and the other way round. -/
theorem not_reservedWord_iff (o n : Byte) :
    ¬ReservedWord o n ↔ ∃ i ∈ Instr.all, i.opcByte = o ∧ (i.operand = none → n = 0x00) := by
  unfold ReservedWord
  by_cases hn : n = 0x00
  · simp only [hn, ne_eq, not_true_eq_false, and_false, or_false, implies_true, and_true]
    revert o
    decide
  · simp only [hn, ne_eq, not_false_eq_true, and_true]
    revert o
    decide

/-- A word decodes exactly when it is not reserved. -/
theorem exists_decode_iff (o n : Byte) : (∃ i, decode (o ++ n) = .ok i) ↔ ¬ReservedWord o n := by
  rw [not_reservedWord_iff]
  constructor
  · rintro ⟨i, h⟩
    have hs := (row_selects_iff_decode i (o ++ n)).mpr ⟨i, h, rfl⟩
    obtain ⟨j, hj, hr⟩ := List.mem_map.mp (opcodeMap_eq_rows ▸ row_mem_opcodeMap i)
    rw [← hr, row_selects_iff, opc_append, imm8Of_append] at hs
    exact ⟨j, hj, hs.1.symm, hs.2⟩
  · rintro ⟨i, -, rfl, h⟩
    obtain ⟨j, hj, -⟩ := decodeParts_of_row i n h
    exact ⟨j, by rw [decode_append, hj]⟩

end Sys2Proof

namespace Sys2Proof.Machine

/-- A word that decodes runs its operation. -/
theorem acceptWord_of_ok {w : OpWord} {i : Instr} (h : decode w = .ok i) (s : State) : acceptWord w s = exec i s := by
  simp [acceptWord, h]

/-- A word that does not decode raises the decoder's fault. -/
theorem acceptWord_of_error {w : OpWord} {c : FaultCode} (h : decode w = .error c) (s : State) :
    acceptWord w s = raise c s := by
  simp [acceptWord, h]

/-- Settles O11: the words that do not decode are the reserved ones, and the decoder's one fault is raised. -/
theorem reservedWordRaisesIllegalOp : Obligations.ReservedWordRaisesIllegalOp := by
  intro o n
  change (ReservedWord o n → _) ∧ (¬ReservedWord o n → _)
  refine ⟨fun hres s => ?_, (exists_decode_iff o n).mpr⟩
  cases hd : decode (o ++ n) with
  | ok i => exact absurd hres ((exists_decode_iff o n).mp ⟨i, hd⟩)
  | error c =>
    obtain rfl := decode_error hd
    obtain ⟨t, ht, hf⟩ := raise_entered .illegalOp s
    have ⟨_, hrsp, _⟩ := hf
    exact ⟨t, (acceptWord_of_error hd s).trans ht, hrsp, hf⟩

/-! ### Steps and responses -/

/-- Every accepted word is answered with one response of the form of R83. -/
theorem acceptWord_answers (w : OpWord) (s : State) :
    ∃ t r, acceptWord w s = .next t ∧ t.rsp = some r ∧ ResponseForm r := by
  rcases acceptWord_cases w s with ⟨c, hc⟩ | ⟨i, d, u, -, hd, -⟩
  · exact ⟨_, _, hc, rfl, responseForm_rspFault c⟩
  · exact ⟨_, _, hd, rfl, responseForm_rspDone d⟩

/-- The step takes the oldest input. -/
theorem step_of_inputs {s : State} {x : HostInput} {rest : List HostInput} (h : s.inputs = x :: rest) :
    step s = takeInput x (s.setInputs rest) := by
  simp [step, h]

/-- Settles O6: an accepted word is answered; a cycle of `rst` and idling go on too. -/
theorem everyWordGetsOneResponse : Obligations.EveryWordGetsOneResponse := by
  refine ⟨fun s => ?_, acceptWord_answers⟩
  cases hs : s.inputs with
  | nil => exact ⟨s.setRsp none, by simp [step, hs, idle]⟩
  | cons x rest =>
    rw [step_of_inputs hs]
    cases x with
    | rst => exact ⟨_, rfl⟩
    | op w =>
      obtain ⟨t, _, ht, -, -⟩ := acceptWord_answers w (s.setInputs rest)
      exact ⟨t, ht⟩

/-- The sixteen bits of a word spell the word. -/
theorem tableWord_toNat (w : OpWord) : tableWord 16 w.toNat = w := by
  rw [tableWord, Nat.mod_eq_of_lt w.isLt, BitVec.ofNat_toNat, BitVec.setWidth_eq]

/-- Settles O4: the oldest input is an operation word, and an accepted word runs what it decodes to. -/
theorem stepRunsTheDecodedOperation : Obligations.StepRunsTheDecodedOperation := by
  constructor
  · intro s w rest i hs hd
    exact (step_of_inputs hs).trans (acceptWord_of_ok hd _)
  · intro s w i hd
    rw [State.withFetchWord, tableWord_toNat]
    exact acceptWord_of_ok hd s

/-! ### The port -/

@[simp] theorem progress_succ (w : OpWord) (n : Nat) (d : Device) :
    progress w (n + 1) d = { d with phase := .busy w n } := rfl

/-- Where an operation stands does not depend on where the port stood before. -/
theorem progress_phase (w : OpWord) (n : Nat) (d : Device) (ph : Phase) :
    progress w n { d with phase := ph } = progress w n d := by
  cases n with
  | succ n => rfl
  | zero => rfl

/-- The operation's last edge: it has run, and its response is presented (R82). -/
theorem progress_zero (w : OpWord) (d : Device) :
    ∃ t r, acceptWord w d.block = .next t ∧ t.rsp = some r ∧ progress w 0 d = { d with block := t, phase := .answer r } := by
  obtain ⟨t, r, ht, hr, -⟩ := acceptWord_answers w d.block
  exact ⟨t, r, ht, hr, by simp [progress, ht, hr]⟩

/-- One edge of an operation in progress. -/
theorem clockEdge_progress_succ {q : Pins} (hq : q.rst = false) (w : OpWord) (n : Nat) (d : Device) :
    clockEdge q (progress w (n + 1) d) = progress w n d := by
  simp [clockEdge, hq, progress_phase]

/-- Edges of an operation in progress, up to its response. -/
theorem clockEdges_progress (w : OpWord) (n : Nat) (d : Device) (qs : List Pins) (hq : ∀ x ∈ qs, x.rst = false) :
    clockEdges (progress w (n + qs.length) d) qs = progress w n d := by
  induction qs with
  | nil => rfl
  | cons q qs ih =>
    rw [List.forall_mem_cons] at hq
    rw [clockEdges, List.length_cons, ← Nat.add_assoc, clockEdge_progress_succ hq.1, ih hq.2]

/-- At the end of its latency the operation has run, with all its state changes, and its response is presented. -/
theorem clockEdges_answer (w : OpWord) (d : Device) (qs : List Pins) (hq : ∀ x ∈ qs, x.rst = false) :
    ∃ t r, acceptWord w d.block = .next t ∧ t.rsp = some r ∧
      clockEdges (progress w qs.length d) qs = { d with block := t, phase := .answer r } := by
  obtain ⟨t, r, ht, hr, hprog⟩ := progress_zero w d
  have hrun := clockEdges_progress w 0 d qs hq
  rw [Nat.zero_add, hprog] at hrun
  exact ⟨t, r, ht, hr, hrun⟩

theorem clockEdges_append (d : Device) (ps qs : List Pins) :
    clockEdges d (ps ++ qs) = clockEdges (clockEdges d ps) qs := by
  induction ps generalizing d with
  | nil => rfl
  | cons p ps ih => exact ih (clockEdge p d)

/-- The response stands for one cycle; one edge later the port is ready. -/
theorem clockEdges_ready (w : OpWord) (d : Device) (qs : List Pins) (q : Pins) (hqs : ∀ x ∈ qs, x.rst = false)
    (hq : q.rst = false) : (clockEdges (progress w qs.length d) (qs ++ [q])).phase = .ready := by
  obtain ⟨t, r, -, -, hrun⟩ := clockEdges_answer w d qs hqs
  rw [clockEdges_append, hrun]
  simp [clockEdges, clockEdge, hq]

/-- An accepted operation is in progress from its edge on, with the free latency (log 6). -/
theorem clockEdge_of_accepts {p : Pins} {d : Device} (hp : p.rst = false) (h : acceptsAt p d = true) :
    clockEdge p d = progress p.opWord (Config.extraCycles d.accepted) { d with accepted := d.accepted + 1 } := by
  simp only [acceptsAt, opReady, Bool.and_eq_true, beq_iff_eq] at h
  obtain ⟨hv, -, hready⟩ := h
  simp [clockEdge, hp, hv, hready]

/-- Settles O56: the number of edges is the free latency, over which the operation is in progress. -/
theorem acceptedOperationIsAnsweredOnce : Obligations.AcceptedOperationIsAnsweredOnce := by
  intro p d hp ha
  rw [clockEdge_of_accepts hp ha]
  generalize Config.extraCycles d.accepted = n
  refine ⟨n, fun qs hqs q hq => ⟨fun hlt => ?_, fun heq => ?_, fun heq => ?_⟩⟩
  · obtain ⟨k, rfl⟩ : ∃ k, n = k + 1 + qs.length := ⟨n - qs.length - 1, by omega⟩
    rw [clockEdges_progress _ _ _ _ hqs]
    simp [opReady, rspOut]
  · subst heq
    obtain ⟨t, r, ht, hr, hrun⟩ := clockEdges_answer p.opWord { d with accepted := d.accepted + 1 } qs hqs
    exact ⟨t, r, ht, hr, by rw [hrun], by simp [hrun, rspOut, hq], by simp [hrun, opReady]⟩
  · rcases List.eq_nil_or_concat' qs with rfl | ⟨qs, x, rfl⟩
    · simp at heq
    · obtain rfl : qs.length = n := by simpa using heq
      rw [List.forall_mem_append, List.forall_mem_singleton] at hqs
      have hready := clockEdges_ready p.opWord { d with accepted := d.accepted + 1 } qs x hqs.1 hqs.2
      exact ⟨by simp [opReady, hq, hready], by simp [rspOut, hready]⟩

/-! ### The assembler -/

/-- RDPKT reads one byte more (R104). -/
theorem expand_rdpkt_succ (n : Nat) : expand (.rdpkt (n + 1)) = expand (.rdpkt n) ++ [.rdob (BitVec.ofNat 8 n)] := by
  simp [expand, List.range_succ]

/-- IBLOAD appends its bytes in order (R104). -/
theorem expand_ibload_append (bs : List Byte) (b : Byte) :
    expand (.ibload (bs ++ [b])) = expand (.ibload bs) ++ [.ibpush b] := by
  simp [expand]

/-- Settles O57: the fixed expansions as they are written, the two lists by their recursion. -/
theorem pseudoOperationsExpand : Obligations.PseudoOperationsExpand :=
  ⟨fun _ _ _ _ => rfl, fun _ _ _ _ _ => rfl, rfl, expand_ibload_append, rfl, fun n _ _ => expand_rdpkt_succ n, rfl, rfl⟩

/-- Settles O58, reading each line. -/
theorem assemblerExamples : Obligations.AssemblerExamples := by
  unfold Obligations.AssemblerExamples
  decide

end Sys2Proof.Machine
end

section
/-! PROOFS. The statements of 40_config_ops.md: NOP and SRST (R110, R111), SETALG (R112), and the `SET` operations
of one byte (R113 to R120). -/

namespace Sys2Proof.Machine

/-! ### The encodings -/

/-- An operation with an operand is decoded from its opcode byte and that operand (R86). -/
theorem decode_operand_row {i : Instr} {n : Byte} (h : i.operand = some n) : decode (i.opcByte ++ n) = .ok i := by
  have hi := decodeParts_opcByte i
  rwa [h, Option.getD_some, ← decode_append] at hi

/-- The row of an operation without an operand refuses every second byte but 0x00 (R87). -/
theorem decode_noOperand_row {o n : Byte} {i : Instr} (h : decodeParts o n = noOperand i n) (hn : n ≠ 0) :
    decode (o ++ n) = .error .illegalOp := by
  rw [decode_append, h, noOperand, if_neg hn]

/-! ### NOP and SRST -/

/-- Settles O19: NOP responds in the state it found. -/
theorem nopDoesNothing : Obligations.NopDoesNothing :=
  ⟨decode_encode .nop, fun _ hn => decode_noOperand_row (i := .nop) rfl hn,
    fun s => completes_of_respond rfl ⟨rfl, rfl⟩ ⟨regsKept_setRsp s _, rfl, rfl⟩⟩

/-- The response presented is no part of the values of R40. -/
theorem atReset_setRsp {s : State} (h : AtReset s) (w : Option RspWord) : AtReset (s.setRsp w) :=
  ⟨fun r => (read_setRsp s w r).trans (h.1 r), h.2⟩

/-- Settles O20: SRST responds in the state that a reset makes. -/
theorem srstResetsEverything : Obligations.SrstResetsEverything :=
  ⟨decode_encode .srst, fun _ hn => decode_noOperand_row (i := .srst) rfl hn,
    fun s => completes_of_respond rfl ⟨rfl, rfl⟩ (atReset_setRsp (atReset_toReset s) _)⟩

/-! ### The `SET` operations -/

/-- An operation that answers 0x00 after a `SET`'s two writes leaves its byte in the register, sets its bit of the
written-mask, and changes no other register or buffer (R121). -/
theorem completes_setMarked {i : Instr} {s : State} {r mask : Reg} {bit v : Byte} (hne : r ≠ mask)
    (h : exec i s = respond 0x00 (s.setMarked r mask bit v)) :
    Completes i s 0x00 fun t => t.readReg r = v ∧ t.readReg mask = s.readReg mask ||| bit ∧
      RegsKeptBut [.reg r, .reg mask] s t ∧ BuffersKept s t := by
  refine completes_of_respond h ?_ ⟨?_, ?_, regsKept_setMarked _ _ _ _ _ _, ?_⟩
  · simp [OutsideKept]
  · simp [readReg_setMarked, hne]
  · simp [readReg_setMarked]
  · simp [BuffersKept]

/-- Settles O22: the operand is tested first; one that passes is written like any `SET` operation's byte. -/
theorem setalgSelectsTheAlgorithm : Obligations.SetalgSelectsTheAlgorithm := by
  intro n s
  refine ⟨decode_operand_row (i := .setalg n) rfl, fun hle => ?_, fun hlt => ?_⟩
  · have hn : ¬(0x01 : Byte) < n := Nat.not_lt.mpr hle
    exact completes_setMarked (r := .csalg) (mask := .profv) (by decide) (if_neg hn)
  · have hn : (0x01 : Byte) < n := hlt
    exact refuses_of_raise (if_pos hn)

/-- Settles O23: each of the three is a `SET` operation marked in `PROFV`. -/
theorem setProfileByteWritesByteAndMask : Obligations.SetProfileByteWritesByteAndMask := by
  intro n s
  refine ⟨⟨decode_operand_row (i := .setack n) rfl, ?_⟩, ⟨decode_operand_row (i := .setnack n) rfl, ?_⟩,
    decode_operand_row (i := .setbusy n) rfl, ?_⟩
  · exact completes_setMarked (r := .ackb) (mask := .profv) (by decide) rfl
  · exact completes_setMarked (r := .nackb) (mask := .profv) (by decide) rfl
  · exact completes_setMarked (r := .busyb) (mask := .profv) (by decide) rfl

/-- Settles O24: each of the five is a `SET` operation marked in `OPNDV`. -/
theorem setOperandByteWritesByteAndMask : Obligations.SetOperandByteWritesByteAndMask := by
  intro n s
  refine ⟨⟨decode_operand_row (i := .setua2 n) rfl, ?_⟩, ⟨decode_operand_row (i := .setbt n) rfl, ?_⟩,
    ⟨decode_operand_row (i := .setcmd n) rfl, ?_⟩, ⟨decode_operand_row (i := .setctrl n) rfl, ?_⟩,
    decode_operand_row (i := .setdata n) rfl, ?_⟩
  · exact completes_setMarked (r := .ua2) (mask := .opndv) (by decide) rfl
  · exact completes_setMarked (r := .bt) (mask := .opndv) (by decide) rfl
  · exact completes_setMarked (r := .cmd) (mask := .opndv) (by decide) rfl
  · exact completes_setMarked (r := .ctrl) (mask := .opndv) (by decide) rfl
  · exact completes_setMarked (r := .data) (mask := .opndv) (by decide) rfl

end Sys2Proof.Machine
end

section
/-! PROOFS. The statements of 41_buffer_ops.md: the operations that write `IB` (R130 to R132), the read-backs
(R134 to R136), and the laws of R137. -/

namespace Sys2Proof.Machine

/-! ### The operations that write `IB` -/

/-- An operation that responds after writing `IB` leaves those bytes there and their number in `IBLEN`, and changes
no other register and not `OB`. -/
theorem completes_setIb {i : Instr} {s : State} {d : Byte} {b : Buffer} (h : exec i s = respond d (s.setIb b)) :
    Completes i s d fun t => t.ib = b ∧ t.read .iblen = BitVec.ofNat 8 b.length ∧ t.ob = s.ob ∧
      RegsKeptBut [.iblen] s t :=
  completes_of_respond h ⟨rfl, rfl⟩ ⟨rfl, rfl, rfl, regsKept_setIb s b _⟩

/-- Settles O25: IBCLR is the write of no bytes. -/
theorem ibclrEmptiesTheInputBuffer : Obligations.IbclrEmptiesTheInputBuffer :=
  ⟨decode_encode .ibclr, fun _ => completes_setIb rfl⟩

/-- IBPUSH below the capacity is an append, answered with the new length (R131). -/
theorem exec_ibpush_of_ne {s : State} (n : Byte) (h : s.ib.length ≠ s.params.ibcap) :
    exec (.ibpush n) s = respond (BitVec.ofNat 8 (s.ib ++ [n]).length) (s.setIb (s.ib ++ [n])) :=
  if_neg h

/-- IBPUSH at the capacity is Overflow (R131). -/
theorem exec_ibpush_of_eq {s : State} (n : Byte) (h : s.ib.length = s.params.ibcap) :
    exec (.ibpush n) s = raise .overflow s :=
  if_pos h

/-- Settles O26: the capacity is tested first; below it IBPUSH is the write of the bytes held and its own. -/
theorem ibpushAppendsOrOverflows : Obligations.IbpushAppendsOrOverflows := by
  intro n s
  refine ⟨decode_operand_row (i := .ibpush n) rfl, fun hlt => ?_, fun heq => ?_⟩
  · simpa using completes_setIb (exec_ibpush_of_ne n hlt.ne)
  · exact refuses_of_raise (exec_ibpush_of_eq n heq)

/-- Settles O27: OB2IB is the write of the bytes of `OB`. -/
theorem ob2ibCopiesTheOutputBuffer : Obligations.Ob2ibCopiesTheOutputBuffer :=
  ⟨decode_encode .ob2ib, fun _ => completes_setIb rfl⟩

/-- Settles O17: a fault leaves `IB`, and so does a completed operation but the four, each of which writes what its
rule says. -/
theorem inputBufferChangesOnlyByItsOperations : Obligations.InputBufferChangesOnlyByItsOperations := by
  intro i s t hx hne
  rcases exec_cases i s with ⟨c, hc⟩ | ⟨d, u, hd, hw⟩
  · obtain rfl := (raise_next ..).mp (hc.symm.trans hx)
    simp at hne
  · obtain rfl := (respond_next ..).mp (hd.symm.trans hx)
    rw [setRsp_ib] at hne ⊢
    cases i
    case ibclr => exact .inl ⟨rfl, congrArg State.ib hw⟩
    case ibpush b => exact .inr (.inl ⟨b, rfl, congrArg State.ib hw.2⟩)
    case ob2ib => exact .inr (.inr (.inl ⟨rfl, congrArg State.ib hw⟩))
    case srst => exact .inr (.inr (.inr ⟨rfl, congrArg State.ib hw⟩))
    all_goals exact absurd (written_ib hw nofun nofun nofun nofun) hne

/-! ### The read-backs -/

/-- A read-back of a byte that is there answers it. -/
theorem readBack_of_some {space : Space} {n b : Byte} {s : State} (c : FaultCode) (h : s.memRead space n = some b) :
    readBack space c n s = respond b s := by
  simp [readBack, h]

/-- A read-back of a location that does not exist raises its fault. -/
theorem readBack_of_none {space : Space} {n : Byte} {s : State} (c : FaultCode) (h : s.memRead space n = none) :
    readBack space c n s = raise c s := by
  simp [readBack, h]

/-- An operation that responds in the state it found completes with every register and both buffers unchanged. -/
theorem completes_unchanged {i : Instr} {s : State} {d : Byte} (h : exec i s = respond d s) :
    Completes i s d fun t => RegsKeptBut [] s t ∧ BuffersKept s t :=
  completes_of_respond h ⟨rfl, rfl⟩ ⟨regsKept_setRsp s _, rfl, rfl⟩

/-- A register is read at its number (R61). -/
theorem memRead_regNumber (s : State) (r : RegSel) : s.memRead .reg (regNumber r) = some (s.read r) := by
  simp [State.memRead, regOfNumber_regNumber]

/-- Only a register's own number names it (R22). -/
theorem regNumber_of_regOfNumber {n : Byte} {r : RegSel} (h : regOfNumber n = some r) : regNumber r = n := by
  unfold regOfNumber at h
  split at h <;> cases h <;> rfl

/-- There is nothing to read at a number that is no register's. -/
theorem memRead_reg_eq_none {n : Byte} (s : State) (h : ∀ r, regNumber r ≠ n) : s.memRead .reg n = none := by
  cases hn : regOfNumber n with
  | none => simp [State.memRead, hn]
  | some r => exact absurd (regNumber_of_regOfNumber hn) (h r)

/-- Settles O29: RDREG reads the register space. -/
theorem rdregAnswersTheRegister : Obligations.RdregAnswersTheRegister := by
  intro s
  refine ⟨fun n => decode_operand_row (i := .rdreg n) rfl, fun r => ?_, fun n hn => ?_⟩
  · exact completes_unchanged (readBack_of_some _ (memRead_regNumber s r))
  · exact refuses_of_raise (readBack_of_none _ (memRead_reg_eq_none s hn))

/-- Settles O30: RDOB reads the space of `OB`. -/
theorem rdobAnswersTheOutputByte : Obligations.RdobAnswersTheOutputByte := by
  intro n s
  refine ⟨decode_operand_row (i := .rdob n) rfl, fun h => ?_, fun h => ?_⟩
  · exact completes_unchanged (readBack_of_some (space := .ob) _ (List.getElem?_eq_getElem h))
  · exact refuses_of_raise (readBack_of_none (space := .ob) _ (List.getElem?_eq_none h))

/-- Settles O31: RDIB reads the space of `IB`. -/
theorem rdibAnswersTheInputByte : Obligations.RdibAnswersTheInputByte := by
  intro n s
  refine ⟨decode_operand_row (i := .rdib n) rfl, fun h => ?_, fun h => ?_⟩
  · exact completes_unchanged (readBack_of_some (space := .ib) _ (List.getElem?_eq_getElem h))
  · exact refuses_of_raise (readBack_of_none (space := .ib) _ (List.getElem?_eq_none h))

/-! ### IBLOAD, read back (R137 (a)) -/

/-- Operations that all complete, from `s` to a state with these bytes in `IB`. -/
def RunsToIb (is : List Instr) (s : State) (b : Buffer) : Prop :=
  ∃ rs t, answers is s = some (rs, t) ∧ (∀ r ∈ rs, faulted r = false) ∧ t.ib = b

/-- A run starts with an operation that responds. -/
theorem runsToIb_cons {i : Instr} {is : List Instr} {s u : State} {d : Byte} {b : Buffer} (h : exec i s = respond d u)
    (hrun : RunsToIb is (u.setRsp (some (rspDone d))) b) : RunsToIb (i :: is) s b := by
  obtain ⟨rs, t, hrs, hok, hib⟩ := hrun
  refine ⟨rspDone d :: rs, t, ?_, ?_, hib⟩
  · simp [answers_of_respond is h, hrs]
  · simpa using hok

/-- Pushes that fit append their bytes in order. -/
theorem runsToIb_map_ibpush (bytes : List Byte) (s : State) (hfit : s.ib.length + bytes.length ≤ s.params.ibcap) :
    RunsToIb (bytes.map .ibpush) s (s.ib ++ bytes) := by
  induction bytes generalizing s with
  | nil => exact ⟨[], s, rfl, nofun, (List.append_nil _).symm⟩
  | cons b bytes ih =>
    rw [List.length_cons] at hfit
    have hne : s.ib.length ≠ s.params.ibcap := by omega
    have hrest : (s.ib ++ [b]).length + bytes.length ≤ s.params.ibcap := by
      rw [List.length_append, List.length_singleton]
      omega
    refine runsToIb_cons (exec_ibpush_of_ne b hne) ?_
    rw [List.append_cons s.ib b bytes]
    exact ih ((s.setIb (s.ib ++ [b])).setRsp _) hrest

/-- IBLOAD of bytes that fit completes with just them in `IB` (R104, R137 (a)). -/
theorem runsToIb_ibload (s : State) {bytes : List Byte} (hfit : bytes.length ≤ s.params.ibcap) :
    RunsToIb (expand (.ibload bytes)) s bytes :=
  runsToIb_cons (i := .ibclr) rfl (runsToIb_map_ibpush bytes ((s.setIb []).setRsp _) (by simpa using hfit))

/-- RDIB answers each of at most 256 bytes of `IB` at its index, which a byte holds. -/
theorem completes_rdib {t : State} {i : Nat} (hi : i < t.ib.length) (hlt : i < 256) :
    Completes (.rdib (BitVec.ofNat 8 i)) t t.ib[i] fun u => u.ib = t.ib := by
  refine completes_of_respond (readBack_of_some (space := .ib) _ ?_) ⟨rfl, rfl⟩ rfl
  simp [State.memRead, indexOf, Nat.mod_eq_of_lt hlt, hi]

/-- Settles O32: the run leaves the bytes in `IB`, and the capacity keeps each index within a byte. -/
theorem ibloadThenRdibAnswersTheBytes : Obligations.IbloadThenRdibAnswersTheBytes := by
  intro s bytes hfit hlegal
  obtain ⟨rs, t, hrun, hok, rfl⟩ := runsToIb_ibload s hfit
  refine ⟨rs, t, hrun, hok, rfl, fun i hi => completes_rdib hi ?_⟩
  have hcap := hlegal.2
  omega

/-! ### The read-backs idempotent and commuting (R137 (d)) -/

/-- Each of RDREG, RDOB and RDIB is a read-back, the same in every state. -/
theorem exec_eq_readBack {i : Instr} (h : ∃ n, i = .rdreg n ∨ i = .rdob n ∨ i = .rdib n) :
    ∃ space c n, exec i = readBack space c n := by
  obtain ⟨n, rfl | rfl | rfl⟩ := h
  · exact ⟨.reg, .illegalOperand, n, rfl⟩
  · exact ⟨.ob, .indexError, n, rfl⟩
  · exact ⟨.ib, .indexError, n, rfl⟩

/-- A read-back that completes changes the response alone, and whatever response stood before it does the same. -/
theorem readBack_completed {space : Space} {c : FaultCode} {n : Byte} {s t : State} {r : RspWord}
    (h : readBack space c n s = .next t) (hr : t.rsp = some r) (hf : faulted r = false) :
    (∃ w, t = s.setRsp w) ∧ ∀ w, readBack space c n (s.setRsp w) = .next t := by
  rcases readBack_cases space c n s with ⟨b, hb, hd⟩ | ⟨-, hc⟩
  · obtain rfl := (respond_next ..).mp (hd.symm.trans h)
    exact ⟨⟨_, rfl⟩, fun w => readBack_of_some c ((memRead_setRsp ..).trans hb)⟩
  · obtain rfl := (raise_next ..).mp (hc.symm.trans h)
    obtain rfl : rspFault c = r := Option.some.inj hr
    simp at hf

/-- Settles O33: after a read-back that completed, the state differs in the response alone, which no read-back
reads. -/
theorem readBacksCommute : Obligations.ReadBacksCommute := by
  intro i j s t u r q hi hj ht hr hrf hu hq hqf
  obtain ⟨_, _, _, hread_i⟩ := exec_eq_readBack hi
  obtain ⟨_, _, _, hread_j⟩ := exec_eq_readBack hj
  rw [hread_i] at ht ⊢
  rw [hread_j] at hu ⊢
  obtain ⟨⟨w, hw⟩, again_i⟩ := readBack_completed ht hr hrf
  obtain ⟨⟨v, hv⟩, again_j⟩ := readBack_completed hu hq hqf
  exact ⟨hw ▸ again_j w, hv ▸ again_i v, hw ▸ again_i w⟩

end Sys2Proof.Machine
end

section
/-! PROOFS. The statements of 42_cart_codec.md: CENC and CVFY (R155, R157), the round trip (R158), and which frames
verify (R159). -/

namespace Sys2Proof.Machine

/-! ### The checksum of bytes 1 to 7 -/

/-- The value of a TWOS checksum (R151). -/
theorem toNat_csTwos (f : List Byte) : (csTwos f).toNat = (0x100 - sumAll (covered f) % 0x100) % 0x100 := by
  simp [csTwos]

/-- TWOS on a frame whose first eight bytes are given; the checksum position is not covered (R150, R151). -/
theorem toNat_checksum_twos (f0 f1 f2 f3 f4 f5 f6 f7 : Byte) (rest : List Byte) :
    (checksum .twos (f0 :: f1 :: f2 :: f3 :: f4 :: f5 :: f6 :: f7 :: rest)).toNat =
      (0x100 - (f1.toNat + f2.toNat + f3.toNat + f4.toNat + f5.toNat + f6.toNat + f7.toNat) % 0x100) % 0x100 := by
  rw [checksum, toNat_csTwos]
  simp [covered, sumAll, Nat.add_assoc]

/-- XOR on a frame whose first eight bytes are given (R150, R152). -/
theorem checksum_xor (f0 f1 f2 f3 f4 f5 f6 f7 : Byte) (rest : List Byte) :
    checksum .xor (f0 :: f1 :: f2 :: f3 :: f4 :: f5 :: f6 :: f7 :: rest) =
      f1 ^^^ f2 ^^^ f3 ^^^ f4 ^^^ f5 ^^^ f6 ^^^ f7 := by
  simp [checksum, csXor, covered, xorAll, BitVec.xor_assoc]

/-- Either checksum depends on the covered bytes alone. -/
theorem checksum_congr (alg : Algorithm) {f g : List Byte} (h : covered f = covered g) :
    checksum alg f = checksum alg g := by
  cases alg with
  | twos => simp [checksum, csTwos, h]
  | xor => simp [checksum, csXor, h]

/-- The verifier compares byte 8 with the checksum (R156). -/
theorem cartOk_iff (alg : Algorithm) (f : List Byte) : cartOk alg f = true ↔ f[8]? = some (checksum alg f) :=
  beq_iff_eq

/-- Bit 0 of `CSALG` clear selects TWOS (R153). -/
theorem algorithmOf_twos {csalg : Byte} (h : csalg.getLsbD 0 = false) : algorithmOf csalg = .twos :=
  if_neg (ne_true_of_eq_false h)

/-- Bit 0 of `CSALG` set selects XOR (R153). -/
theorem algorithmOf_xor {csalg : Byte} (h : csalg.getLsbD 0 = true) : algorithmOf csalg = .xor :=
  if_pos h

/-! ### What CENC and CVFY execute -/

/-- The last byte of the frame that CENC builds: the selected checksum of the eight before it (R154). -/
def State.frameChecksum (s : State) : Byte :=
  checksum (algorithmOf s.csalg) [0x02, 0x06, 0x01, s.ua2, s.bt, s.cmd, s.ctrl, s.data]

/-- The frame that CENC builds, byte by byte. -/
theorem frame_eq (s : State) :
    s.frame = [0x02, 0x06, 0x01, s.ua2, s.bt, s.cmd, s.ctrl, s.data, s.frameChecksum] := rfl

/-- With all six bits set CENC writes the frame and answers its checksum. -/
theorem exec_cenc_of_written {s : State} (ha : s.profv.getLsbD 0 = true) (ho : s.opndv.extractLsb' 0 5 = 0b11111#5) :
    exec .cenc s = respond s.frameChecksum (s.setOb s.frame) :=
  if_pos (by simp [algWritten, operandsWritten, ha, ho])

/-- With one of the six bits clear CENC is NotConfigured. -/
theorem exec_cenc_of_unwritten {s : State}
    (h : s.profv.getLsbD 0 = false ∨ s.opndv.extractLsb' 0 5 ≠ 0b11111#5) : exec .cenc s = raise .notConfigured s := by
  refine if_neg ?_
  rw [algWritten, operandsWritten, Bool.and_eq_true, beq_iff_eq]
  rintro ⟨ha, ho⟩
  exact h.elim (by simp [ha]) (absurd ho)

/-- Without an algorithm CVFY is NotConfigured, whatever the length. -/
theorem exec_cvfy_of_unwritten {s : State} (ha : s.profv.getLsbD 0 = false) : exec .cvfy s = raise .notConfigured s :=
  if_pos (by rw [algWritten, ha]; rfl)

/-- With an algorithm and a length that is not 9 CVFY is LengthError. -/
theorem exec_cvfy_of_length {s : State} (ha : s.profv.getLsbD 0 = true) (h9 : s.ib.length ≠ 9) :
    exec .cvfy s = raise .lengthError s :=
  (if_neg (by simp [algWritten, ha])).trans (if_pos h9)

/-- With an algorithm and nine bytes CVFY answers and records what the verifier says. -/
theorem exec_cvfy_of_nine {s : State} (ha : s.profv.getLsbD 0 = true) (h9 : s.ib.length = 9) :
    exec .cvfy s = respond (okByte (cartOk (algorithmOf s.csalg) s.ib))
      (s.writeReg .vfyr (vfyrValue (cartOk (algorithmOf s.csalg) s.ib))) :=
  (if_neg (by simp [algWritten, ha])).trans (if_neg (not_not_intro h9))

/-! ### CENC and CVFY -/

/-- An operation that responds after writing `OB` leaves those bytes there and their number in `OBLEN`, and changes
no other register and not `IB`. -/
theorem completes_setOb {i : Instr} {s : State} {d : Byte} {b : Buffer} (h : exec i s = respond d (s.setOb b)) :
    Completes i s d fun t => t.ob = b ∧ t.read .oblen = BitVec.ofNat 8 b.length ∧ t.ib = s.ib ∧
      RegsKeptBut [.oblen] s t :=
  completes_of_respond h ⟨rfl, rfl⟩ ⟨rfl, rfl, rfl, regsKept_setOb s b _⟩

/-- An operation that answers a verification leaves its result in `VFYR` and changes nothing else (R85, R35). -/
theorem completes_vfyr {i : Instr} {s : State} {ok : Bool}
    (h : exec i s = respond (okByte ok) (s.writeReg .vfyr (vfyrValue ok))) :
    Completes i s (if ok then 0x01 else 0x00) fun t => t.vfyr = (if ok then 0x81 else 0x80) ∧
      RegsKeptBut [.reg .vfyr] s t ∧ BuffersKept s t := by
  refine completes_of_respond h ⟨rfl, rfl⟩ ⟨?_, regsKept_writeReg s _ _ _, rfl, rfl⟩
  cases ok <;> rfl

/-- Settles O34: the answer is the last byte of the frame written to `OB`. -/
theorem cencBuildsTheFrame : Obligations.CencBuildsTheFrame := by
  refine ⟨decode_encode .cenc, fun s => ⟨?_, fun h => refuses_of_raise (exec_cenc_of_unwritten h)⟩⟩
  rintro ⟨ha, ho⟩
  refine ⟨s.frameChecksum, fun htwos => ?_, fun hxor => ?_, completes_setOb (frame_eq s ▸ exec_cenc_of_written ha ho)⟩
  · rw [State.frameChecksum, algorithmOf_twos htwos]
    exact toNat_checksum_twos ..
  · rw [State.frameChecksum, algorithmOf_xor hxor]
    exact checksum_xor ..

/-- Settles O35: the two refusals in their order, and the verifier's result on nine bytes. -/
theorem cvfyChecksTheNinthByte : Obligations.CvfyChecksTheNinthByte := by
  refine ⟨decode_encode .cvfy, fun s => ⟨fun ha => refuses_of_raise (exec_cvfy_of_unwritten ha),
    fun ha h9 => refuses_of_raise (exec_cvfy_of_length ha h9), ?_⟩⟩
  intro f0 f1 f2 f3 f4 f5 f6 f7 f8 ha hib
  have hok (alg : Algorithm) : cartOk alg s.ib = true ↔ f8 = checksum alg [f0, f1, f2, f3, f4, f5, f6, f7, f8] := by
    rw [hib, cartOk_iff]
    exact Option.some_inj
  refine ⟨cartOk (algorithmOf s.csalg) s.ib, fun htwos => ?_, fun hxor => ?_,
    completes_vfyr (exec_cvfy_of_nine ha (by rw [hib]; rfl))⟩
  · rw [algorithmOf_twos htwos, hok, ← BitVec.toNat_inj, toNat_checksum_twos]
  · rw [algorithmOf_xor hxor, hok, checksum_xor]

/-! ### The round trip -/

/-- Every frame built verifies under its algorithm: the appended byte is not covered (R158). -/
theorem cartOk_cartFrame (alg : Algorithm) (ua2 bt cmd ctrl data : Byte) :
    cartOk alg (cartFrame alg ua2 bt cmd ctrl data) = true :=
  (cartOk_iff ..).mpr (congrArg some (checksum_congr alg rfl))

/-- OB2IB on the nine bytes of a frame (R132). -/
theorem exec_ob2ib_of_nine {s : State} (h : s.ob.length = 9) : exec .ob2ib s = respond 0x09 (s.setIb s.ob) := by
  change respond (BitVec.ofNat 8 s.ob.length) (s.setIb s.ob) = _
  rw [h]
  rfl

/-- CVFY on a frame that verifies. -/
theorem exec_cvfy_of_ok {s : State} (ha : s.profv.getLsbD 0 = true) (h9 : s.ib.length = 9)
    (hok : cartOk (algorithmOf s.csalg) s.ib = true) : exec .cvfy s = respond 0x01 (s.writeReg .vfyr 0x81) := by
  rw [exec_cvfy_of_nine ha h9, hok]
  rfl

/-- Settles O36: the state that OB2IB leaves has CENC's frame in `IB`. -/
theorem cartRoundTripVerifies : Obligations.CartRoundTripVerifies := by
  refine ⟨cartOk_cartFrame, fun s ha ho => ?_⟩
  have hopndv : s.opndv.extractLsb' 0 5 = 0b11111#5 := by rw [ho]; rfl
  refine ⟨s.frameChecksum, ?_⟩
  rw [answers_of_respond _ (exec_cenc_of_written ha hopndv), answers_of_respond _ (exec_ob2ib_of_nine ?_),
    answers_of_respond [] (exec_cvfy_of_ok ?_ ?_ ?_)]
  · simp [answers, rspDone]
  · exact ha
  · rfl
  · exact cartOk_cartFrame ..
  · rfl

/-! ### Which frames verify -/

/-- The operation that each checksum is the fold of: addition modulo 256, or exclusive or (R151, R152). -/
def combine : Algorithm → Byte → Byte → Byte
  | .twos, a, b => a + b
  | .xor, a, b => a ^^^ b

/-- The bytes folded by the checksum's operation; 0x00 over bytes 1 to 8 is what a frame verifies by. -/
def residue (alg : Algorithm) (bs : List Byte) : Byte := bs.foldr (combine alg) 0

@[simp] theorem residue_cons (alg : Algorithm) (b : Byte) (bs : List Byte) :
    residue alg (b :: bs) = combine alg b (residue alg bs) := rfl

/-- Under TWOS the residue is the sum modulo 256. -/
theorem residue_twos (bs : List Byte) : residue .twos bs = BitVec.ofNat 8 (sumAll bs) := by
  induction bs with
  | nil => rfl
  | cons b bs ih => simp [ih, combine, sumAll, BitVec.ofNat_add]

/-- Under XOR the residue is the exclusive or. -/
theorem residue_xor (bs : List Byte) : residue .xor bs = xorAll bs := by
  induction bs with
  | nil => rfl
  | cons b bs ih => simp [ih, combine, xorAll]

theorem combine_left_inj (alg : Algorithm) {a b c : Byte} : combine alg a c = combine alg b c ↔ a = b := by
  cases alg with
  | twos => exact BitVec.add_left_inj c
  | xor => exact BitVec.xor_left_inj c

theorem combine_right_inj (alg : Algorithm) {a b c : Byte} : combine alg c a = combine alg c b ↔ a = b := by
  cases alg with
  | twos => exact BitVec.add_right_inj c
  | xor => exact BitVec.xor_right_inj c

/-- The last byte's part in the residue. -/
theorem residue_concat (alg : Algorithm) (bs : List Byte) (c : Byte) :
    residue alg (bs ++ [c]) = combine alg (residue alg bs) c := by
  induction bs with
  | nil => cases alg <;> simp [residue, combine]
  | cons b bs ih =>
    rw [List.cons_append, residue_cons, ih, residue_cons]
    cases alg with
    | twos => exact (BitVec.add_assoc ..).symm
    | xor => exact (BitVec.xor_assoc ..).symm

/-- The checksum is the one byte that brings the residue of the covered bytes to 0x00. -/
theorem combine_residue_eq_zero_iff (alg : Algorithm) (f : List Byte) (c : Byte) :
    combine alg (residue alg (covered f)) c = 0 ↔ c = checksum alg f := by
  cases alg with
  | twos =>
    rw [residue_twos, checksum, ← BitVec.toNat_inj, ← BitVec.toNat_inj, toNat_csTwos, combine, BitVec.toNat_add,
      BitVec.toNat_ofNat]
    change _ = 0 ↔ _
    omega
  | xor =>
    rw [residue_xor]
    exact BitVec.xor_eq_zero_iff.trans eq_comm

/-- A nine-byte frame is byte 0, the seven covered bytes and byte 8. -/
theorem tail_eq_covered_append : ∀ {f : List Byte} (h : f.length = 9), f.tail = covered f ++ [f[8]]
  | [_, _, _, _, _, _, _, _, _], _ => rfl

/-- A nine-byte frame verifies exactly when bytes 1 to 8 have the residue 0x00 (R159 (a), (b)). -/
theorem cartOk_iff_residue (alg : Algorithm) {f : List Byte} (h : f.length = 9) :
    cartOk alg f = true ↔ residue alg f.tail = 0 := by
  rw [cartOk_iff, tail_eq_covered_append h, residue_concat, combine_residue_eq_zero_iff,
    List.getElem?_eq_getElem (by omega), Option.some_inj]

/-- Settles O37: the residue is the sum modulo 256, or the exclusive or. -/
theorem cartFrameVerifiesIffSumIsZero : Obligations.CartFrameVerifiesIffSumIsZero := by
  intro f0 f1 f2 f3 f4 f5 f6 f7 f8
  rw [cartOk_iff_residue .twos rfl, cartOk_iff_residue .xor rfl, residue_twos, residue_xor, ← BitVec.toNat_inj,
    BitVec.toNat_ofNat]
  simp [sumAll, xorAll, Nat.add_assoc, BitVec.xor_assoc]

/-- Replacing one byte by another changes the residue: every byte but that one cancels. -/
theorem getElem?_of_residue_set {alg : Algorithm} {bs : List Byte} {k : Nat} {b : Byte} (hk : k < bs.length)
    (h : residue alg (bs.set k b) = residue alg bs) : bs[k]? = some b := by
  induction bs generalizing k with
  | nil => simp at hk
  | cons a bs ih =>
    cases k with
    | zero => exact congrArg some ((combine_left_inj alg).mp h).symm
    | succ k => exact ih (Nat.lt_of_succ_lt_succ hk) ((combine_right_inj alg).mp h)

/-- Settles O38: byte 0 has no part in the residue, and each other byte changes it. -/
theorem singleByteChangeBreaksTheFrame : Obligations.SingleByteChangeBreaksTheFrame := by
  intro alg f k b h9 hok hk
  have hset9 : (f.set k b).length = 9 := List.length_set.trans h9
  rw [cartOk_iff_residue alg h9] at hok
  rw [← Bool.not_eq_true, cartOk_iff_residue alg hset9]
  cases f with
  | nil => contradiction
  | cons f0 bs =>
    cases k with
    | zero => exact ⟨fun _ => hok, nofun⟩
    | succ k =>
      have hlt : k < bs.length := Nat.lt_of_succ_lt_succ (hk.trans_eq h9.symm)
      exact ⟨nofun, fun _ hne hzero => hne (getElem?_of_residue_set (bs := bs) hlt (hzero.trans hok.symm))⟩

end Sys2Proof.Machine
end

section
/-! PROOFS. The statements of 43_ninepin_codec.md: NENC and NVFY (R173, R175), the round trip (R176), and that the
nine-pin operations and TCDEC read no profile or operand register (R171, R214). -/

namespace Sys2Proof.Machine

/-! ### The packet -/

/-- The checksum of two bytes (R170). -/
theorem npChecksum_two (a b : Byte) : npChecksum [a, b] = a ^^^ b := by simp [npChecksum, xorAll]

/-- The checksum of three bytes (R170). -/
theorem npChecksum_three (a b c : Byte) : npChecksum [a, b, c] = a ^^^ b ^^^ c := by
  simp [npChecksum, xorAll, BitVec.xor_assoc]

/-- The verifier compares the last byte with the checksum of those before it (R172). -/
theorem npOk_concat (p : List Byte) (c : Byte) : npOk (p ++ [c]) = decide (c = npChecksum p) := by
  rw [npOk, List.getLast?_concat, List.dropLast_concat, Option.some_beq_some, beq_eq_decide]

/-- Every packet built verifies, of whatever length (R176). -/
theorem npOk_npPacket (p : List Byte) : npOk (npPacket p) = true :=
  (npOk_concat ..).trans (decide_eq_true rfl)

/-- The length of a packet (R172). -/
theorem length_npPacket (p : List Byte) : (npPacket p).length = p.length + 1 := List.length_append

/-! ### What NENC and NVFY execute -/

/-- On two or three bytes NENC writes the packet and answers its checksum. -/
theorem exec_nenc_of_length {s : State} (h : s.ib.length = 2 ∨ s.ib.length = 3) :
    exec .nenc s = respond (npChecksum s.ib) (s.setOb (npPacket s.ib)) :=
  if_neg (by omega)

/-- On any other length NENC is LengthError. -/
theorem exec_nenc_of_ne {s : State} (h2 : s.ib.length ≠ 2) (h3 : s.ib.length ≠ 3) :
    exec .nenc s = raise .lengthError s :=
  if_pos ⟨h2, h3⟩

/-- On three or four bytes NVFY answers and records what the verifier says. -/
theorem exec_nvfy_of_length {s : State} (h : s.ib.length = 3 ∨ s.ib.length = 4) :
    exec .nvfy s = respond (okByte (npOk s.ib)) (s.writeReg .vfyr (vfyrValue (npOk s.ib))) :=
  if_neg (by omega)

/-- On the bytes `p` and a last one NVFY answers and records whether that one is the checksum of `p`. -/
theorem exec_nvfy_of_concat {s : State} {p : Buffer} {c : Byte} (hib : s.ib = p ++ [c])
    (h : p.length = 2 ∨ p.length = 3) : exec .nvfy s =
      respond (okByte (decide (c = npChecksum p))) (s.writeReg .vfyr (vfyrValue (decide (c = npChecksum p)))) := by
  have hlen : s.ib.length = 3 ∨ s.ib.length = 4 := by
    rw [hib, List.length_append, List.length_singleton]
    omega
  rw [exec_nvfy_of_length hlen, hib, npOk_concat]

/-- On any other length NVFY is LengthError. -/
theorem exec_nvfy_of_ne {s : State} (h3 : s.ib.length ≠ 3) (h4 : s.ib.length ≠ 4) :
    exec .nvfy s = raise .lengthError s :=
  if_pos ⟨h3, h4⟩

/-! ### NENC and NVFY -/

/-- NENC on the bytes `p` completes with their checksum, and leaves their packet in `OB`. -/
theorem completes_nenc {s : State} {p : Buffer} (hib : s.ib = p) (h : p.length = 2 ∨ p.length = 3) :
    Completes .nenc s (npChecksum p) fun t =>
      t.ob = npPacket p ∧ t.read .oblen = BitVec.ofNat 8 (p.length + 1) ∧ t.ib = s.ib ∧ RegsKeptBut [.oblen] s t := by
  subst hib
  rw [← length_npPacket]
  exact completes_setOb (exec_nenc_of_length h)

/-- Settles O39: the packet is the bytes of `IB` with their checksum, which is their exclusive or. -/
theorem nencBuildsThePacket : Obligations.NencBuildsThePacket := by
  refine ⟨decode_encode .nenc, fun s => ⟨fun a b hib => ?_, fun a b c hib => ?_,
    fun h2 h3 => refuses_of_raise (exec_nenc_of_ne h2 h3)⟩⟩
  · rw [← npChecksum_two]
    exact completes_nenc hib (.inl rfl)
  · rw [← npChecksum_three]
    exact completes_nenc hib (.inr rfl)

/-- NVFY on the bytes `p` and a last one completes with whether that one is the checksum of `p`. -/
theorem completes_nvfy {s : State} {p : Buffer} {c : Byte} (hib : s.ib = p ++ [c])
    (h : p.length = 2 ∨ p.length = 3) :
    Completes .nvfy s (if c = npChecksum p then 0x01 else 0x00) fun t =>
      t.vfyr = (if c = npChecksum p then 0x81 else 0x80) ∧ RegsKeptBut [.reg .vfyr] s t ∧ BuffersKept s t := by
  simpa using completes_vfyr (exec_nvfy_of_concat hib h)

/-- Settles O40: the last byte is compared with the checksum of the others, which is their exclusive or. -/
theorem nvfyChecksTheLastByte : Obligations.NvfyChecksTheLastByte := by
  refine ⟨decode_encode .nvfy, fun s => ⟨fun a b c hib => ?_, fun a b c d hib => ?_,
    fun h3 h4 => refuses_of_raise (exec_nvfy_of_ne h3 h4)⟩⟩
  · rw [← npChecksum_two]
    exact completes_nvfy hib (.inl rfl)
  · rw [← npChecksum_three]
    exact completes_nvfy hib (.inr rfl)

/-! ### The round trip -/

/-- A run in two parts: the second starts in the state that the first leaves. -/
theorem answers_append (is js : List Instr) (s : State) : answers (is ++ js) s =
    (answers is s).bind fun p => (answers js p.2).map fun q => (p.1 ++ q.1, q.2) := by
  induction is generalizing s with
  | nil => simp [answers]
  | cons i is ih =>
    simp only [List.cons_append, answers]
    cases exec i s with
    | fault | refused => rfl
    | next t =>
      dsimp only
      cases t.rsp with
      | none => rfl
      | some r => simp [ih, Option.map_bind, Option.bind_map, Function.comp_def]

/-- NVFY on the packet of two or three bytes. -/
theorem exec_nvfy_of_npPacket {s : State} {p : Buffer} (hib : s.ib = npPacket p) (h : p.length = 2 ∨ p.length = 3) :
    exec .nvfy s = respond 0x01 (s.writeReg .vfyr 0x81) := by
  rw [exec_nvfy_of_concat (c := npChecksum p) hib h, decide_eq_true rfl]
  rfl

/-- NENC, OB2IB, NVFY on two or three bytes: none of them faults, and the last answer is 0x0001. -/
theorem answers_nenc_ob2ib_nvfy {s : State} (h : s.ib.length = 2 ∨ s.ib.length = 3) :
    ∃ cs len t, answers [.nenc, .ob2ib, .nvfy] s = some ([rspDone cs, rspDone len, rspDone 0x01], t) ∧
      t.vfyr = 0x81 := by
  rw [answers_of_respond _ (exec_nenc_of_length h), answers_of_respond (i := .ob2ib) _ rfl,
    answers_of_respond _ (exec_nvfy_of_npPacket (p := s.ib) rfl h)]
  exact ⟨_, _, _, rfl, rfl⟩

/-- Settles O41: IBLOAD leaves `P` in `IB`, and NVFY runs on the packet that NENC built from it. -/
theorem ninePinRoundTripVerifies : Obligations.NinePinRoundTripVerifies := by
  refine ⟨fun p _ => npOk_npPacket p, fun s p hp hlegal => ?_⟩
  have hcap := hlegal.1
  obtain ⟨rs, u, hload, hok, rfl⟩ := runsToIb_ibload s (bytes := p) (by omega)
  obtain ⟨cs, len, t, hcodec, hvfyr⟩ := answers_nenc_ob2ib_nvfy hp
  refine ⟨rs ++ [rspDone cs, rspDone len, rspDone 0x01], t, ?_, by simp [rspDone], ?_, hvfyr⟩
  · rw [answers_append, hload, Option.bind_some, hcodec]
    rfl
  · simpa [or_imp, forall_and] using hok

/-! ### No profile or operand register is read -/

/-- A state is its registers, its two buffers, its response and what is no state of the block. -/
theorem state_ext {s t : State} (hreg : ∀ r, s.readReg r = t.readReg r) (hib : s.ib = t.ib) (hob : s.ob = t.ob)
    (hparams : s.params = t.params) (hinputs : s.inputs = t.inputs) (hrsp : s.rsp = t.rsp) : s = t := by
  cases s
  cases t
  simp only [State.mk.injEq]
  exact ⟨hreg .profv, hreg .csalg, hreg .ackb, hreg .nackb, hreg .busyb, hreg .opndv, hreg .ua2, hreg .bt, hreg .cmd,
    hreg .ctrl, hreg .data, hib, hob, hreg .vfyr, hreg .classr, hreg .tcstat, hreg .tch, hreg .tcm, hreg .tcs,
    hreg .tcf, hreg .flt, hparams, hinputs, hrsp⟩

/-- Writes of two registers commute. -/
theorem writeReg_comm (s : State) {r q : Reg} (h : r ≠ q) (v w : Byte) :
    (s.writeReg r v).writeReg q w = (s.writeReg q w).writeReg r v := by
  refine state_ext (fun p => ?_) (by simp) (by simp) (by simp) (by simp) (by simp)
  simp only [readReg_writeReg]
  split
  · next hq => rw [if_neg (hq ▸ h.symm)]
  · rfl

theorem setOb_writeReg (s : State) (r : Reg) (v : Byte) (b : Buffer) :
    (s.writeReg r v).setOb b = (s.setOb b).writeReg r v := by
  cases r <;> rfl

theorem setRsp_writeReg (s : State) (r : Reg) (v : Byte) (w : Option RspWord) :
    (s.writeReg r v).setRsp w = (s.setRsp w).writeReg r v := by
  cases r <;> rfl

/-- The commit of a timecode result commutes with the write of any other register. -/
theorem tcCommit_writeReg (s : State) {r : Reg} (h : r ∉ [Reg.tcstat, .tch, .tcm, .tcs, .tcf]) (v : Byte)
    (x : TcResult) : (s.writeReg r v).tcCommit x = (s.tcCommit x).writeReg r v := by
  simp only [List.mem_cons, List.not_mem_nil, or_false, not_or] at h
  obtain ⟨hstat, hh, hm, hs, hf⟩ := h
  simp only [State.tcCommit, writeReg_comm _ hstat, writeReg_comm _ hh, writeReg_comm _ hm, writeReg_comm _ hs,
    writeReg_comm _ hf]

/-- The operation gives the same outcome with `v` written to `r` first, up to that byte, and is not NotConfigured. -/
def IgnoresReg (i : Instr) (s : State) (r : Reg) (v : Byte) : Prop :=
  ∃ t, exec i s = .next t ∧ exec i (s.writeReg r v) = .next (t.writeReg r v) ∧ t.rsp ≠ some (rspFault .notConfigured)

/-- Two responses in states that differ in `r` alone. -/
theorem ignoresReg_of_respond {i : Instr} {s u : State} {r : Reg} {v d : Byte} (h : exec i s = respond d u)
    (hw : exec i (s.writeReg r v) = respond d (u.writeReg r v)) : IgnoresReg i s r v := by
  refine ⟨_, h, ?_, by simp⟩
  rw [hw, respond, setRsp_writeReg]

/-- The same fault, but NotConfigured, from two states that differ in `r` alone. -/
theorem ignoresReg_of_raise {i : Instr} {s : State} {r : Reg} {v : Byte} {c : FaultCode} (hr : r ≠ .flt)
    (hc : c ≠ .notConfigured) (h : exec i s = raise c s) (hw : exec i (s.writeReg r v) = raise c (s.writeReg r v)) :
    IgnoresReg i s r v := by
  refine ⟨_, h, ?_, by simpa using hc⟩
  rw [hw, raise, writeReg_comm _ hr, setRsp_writeReg, writeReg_flt, if_neg hr]

/-- NENC reads `IB` alone. -/
theorem nenc_ignoresReg (s : State) {r : Reg} (v : Byte) (hflt : r ≠ .flt) : IgnoresReg .nenc s r v := by
  have hib := writeReg_ib s r v
  by_cases h : s.ib.length = 2 ∨ s.ib.length = 3
  · refine ignoresReg_of_respond (exec_nenc_of_length h) ?_
    rw [exec_nenc_of_length (hib ▸ h), hib, setOb_writeReg]
  · obtain ⟨h2, h3⟩ := not_or.mp h
    exact ignoresReg_of_raise hflt (by decide) (exec_nenc_of_ne h2 h3) (exec_nenc_of_ne (hib ▸ h2) (hib ▸ h3))

/-- NVFY reads `IB` alone. -/
theorem nvfy_ignoresReg (s : State) {r : Reg} (v : Byte) (hflt : r ≠ .flt) (hvfyr : r ≠ .vfyr) :
    IgnoresReg .nvfy s r v := by
  have hib := writeReg_ib s r v
  by_cases h : s.ib.length = 3 ∨ s.ib.length = 4
  · refine ignoresReg_of_respond (exec_nvfy_of_length h) ?_
    rw [exec_nvfy_of_length (hib ▸ h), hib, writeReg_comm _ hvfyr]
  · obtain ⟨h3, h4⟩ := not_or.mp h
    exact ignoresReg_of_raise hflt (by decide) (exec_nvfy_of_ne h3 h4) (exec_nvfy_of_ne (hib ▸ h3) (hib ▸ h4))

/-- TCDEC commits the result of the chain and answers its status (R214). -/
theorem exec_tcdec (s : State) : exec .tcdec s =
    respond (tcStatus (tcDecode s.params.bcdStrict s.ib)) (s.tcCommit (tcDecode s.params.bcdStrict s.ib)) := rfl

/-- TCDEC reads `IB` and `BCD_STRICT` alone. -/
theorem tcdec_ignoresReg (s : State) {r : Reg} (v : Byte) (h : r ∉ [Reg.tcstat, .tch, .tcm, .tcs, .tcf]) :
    IgnoresReg .tcdec s r v := by
  refine ignoresReg_of_respond (exec_tcdec s) ?_
  rw [exec_tcdec, writeReg_ib, writeReg_params, tcCommit_writeReg s h]

/-- Settles O42: each of the three reads `IB`, and TCDEC `BCD_STRICT`, and what they write commutes with the write of
a profile or operand register. -/
theorem ninePinReadsNoProfile : Obligations.NinePinReadsNoProfile := by
  intro i s r v hi hr
  have hflt : r ≠ .flt := ne_of_mem_of_not_mem hr (by decide)
  have hvfyr : r ≠ .vfyr := ne_of_mem_of_not_mem hr (by decide)
  have htc : r ∉ [Reg.tcstat, .tch, .tcm, .tcs, .tcf] := by
    revert r
    decide
  obtain rfl | rfl | rfl := hi
  · exact nenc_ignoresReg s v hflt
  · exact nvfy_ignoresReg s v hflt hvfyr
  · exact tcdec_ignoresReg s v htc

end Sys2Proof.Machine
end

section
/-! PROOFS. The statements of 44_classifier.md: CLSFY (R186, R187), equal profile bytes (R190), and exactly which
responses are Empty and Data (R191). -/

namespace Sys2Proof.Machine

/-! ### The five classes -/

/-- Empty: there is no byte (R186). -/
theorem classify_eq_empty_iff {raw : List Byte} {a n b : Byte} : classify raw a n b = .empty ↔ raw = [] := by
  fun_cases classify raw a n b <;> simp

/-- Ack: the first test passes (R186). -/
theorem classify_eq_ack_iff {raw : List Byte} {a n b : Byte} : classify raw a n b = .ack ↔ raw.head? = some a := by
  fun_cases classify raw a n b <;> simp [*]

/-- Nack: the second test passes where the first fails (R186). -/
theorem classify_eq_nack_iff {raw : List Byte} {a n b : Byte} :
    classify raw a n b = .nack ↔ raw.head? = some n ∧ n ≠ a := by
  fun_cases classify raw a n b <;> simp_all

/-- Busy: the third test passes where the first two fail (R186). -/
theorem classify_eq_busy_iff {raw : List Byte} {a n b : Byte} :
    classify raw a n b = .busy ↔ raw.head? = some b ∧ b ≠ a ∧ b ≠ n := by
  fun_cases classify raw a n b <;> simp_all

/-- Data: there is a byte and the three tests fail (R186, R191). -/
theorem classify_eq_data_iff {raw : List Byte} {a n b : Byte} :
    classify raw a n b = .data ↔ ∃ x xs, raw = x :: xs ∧ x ≠ a ∧ x ≠ n ∧ x ≠ b := by
  fun_cases classify raw a n b <;> simp_all

/-- Only Empty has the code 0 (R185). -/
theorem classCode_eq_zero_iff (c : RespClass) : classCode c = 0 ↔ c = .empty := by
  cases c <;> decide

/-- Only Data has the code 4 (R185). -/
theorem classCode_eq_four_iff (c : RespClass) : classCode c = 4 ↔ c = .data := by
  cases c <;> decide

/-- No class has a code above 4 (R185). -/
theorem toNat_classCode_le (c : RespClass) : (classCode c).toNat ≤ 4 := by
  cases c <;> decide

/-- Settles O44: the codes 0 and 4 are those of Empty and Data. -/
theorem classifyEmptyAndDataExactly : Obligations.ClassifyEmptyAndDataExactly := by
  intro raw a n b
  refine ⟨?_, ?_, toNat_classCode_le _⟩
  · rw [classCode_eq_zero_iff, classify_eq_empty_iff, List.length_eq_zero_iff]
  · rw [classCode_eq_four_iff, classify_eq_data_iff]

/-- Settles O45: Nack needs NACKB to differ from ACKB, and Busy needs BUSYB to differ from both. -/
theorem equalProfileBytesEarlierTestWins : Obligations.EqualProfileBytesEarlierTestWins := by
  intro x xs a b
  refine ⟨fun hx => ?_, fun raw hnack => ?_, fun hx hne => ?_, fun raw hbusy => ?_, fun hx => ?_, fun raw hbusy => ?_⟩
  · exact classify_eq_ack_iff.mpr (congrArg some hx)
  · obtain ⟨-, hne⟩ := classify_eq_nack_iff.mp hnack
    exact hne rfl
  · exact classify_eq_nack_iff.mpr ⟨congrArg some hx, hne⟩
  · obtain ⟨-, -, hne⟩ := classify_eq_busy_iff.mp hbusy
    exact hne rfl
  · exact classify_eq_ack_iff.mpr (congrArg some hx)
  · obtain ⟨-, hne, -⟩ := classify_eq_busy_iff.mp hbusy
    exact hne rfl

/-! ### CLSFY -/

/-- With one of the three bits clear CLSFY is NotConfigured, whatever `IB` holds. -/
theorem exec_clsfy_of_unwritten {s : State} (h : s.profv.extractLsb' 1 3 ≠ 0b111#3) :
    exec .clsfy s = raise .notConfigured s :=
  if_neg (mt beq_iff_eq.mp h)

/-- With the three bits set CLSFY answers and records the class of `IB`. -/
theorem exec_clsfy_of_written {s : State} (h : s.profv.extractLsb' 1 3 = 0b111#3) :
    exec .clsfy s = respond (classCode (classify s.ib s.ackb s.nackb s.busyb))
      (s.writeReg .classr (classValue (classify s.ib s.ackb s.nackb s.busyb))) :=
  if_pos (beq_iff_eq.mpr h)

/-- An operation that answers a class leaves 0x80 plus its code in `CLASS` and changes nothing else (R36). -/
theorem completes_classr {i : Instr} {s : State} {c : RespClass}
    (h : exec i s = respond (classCode c) (s.writeReg .classr (classValue c))) :
    Completes i s (classCode c) fun t => t.classr = 0x80 + classCode c ∧ RegsKeptBut [.reg .classr] s t ∧
      BuffersKept s t :=
  completes_of_respond h ⟨rfl, rfl⟩ ⟨rfl, regsKept_writeReg s _ _ _, rfl, rfl⟩

/-- The code of a response that has a first byte, by the three tests in their order (R185, R186). -/
theorem classCode_classify_cons (x : Byte) (xs : List Byte) (a n b : Byte) :
    classCode (classify (x :: xs) a n b) = if x = a then 1 else if x = n then 2 else if x = b then 3 else 4 := by
  simp only [classify, apply_ite classCode]
  rfl

/-- Settles O43: the three bits are tested first; with them set the answer is the class of `IB`. -/
theorem clsfyAnswersTheClass : Obligations.ClsfyAnswersTheClass := by
  refine ⟨decode_encode .clsfy, fun s => ⟨fun h => refuses_of_raise (exec_clsfy_of_unwritten h), fun h => ?_⟩⟩
  refine ⟨classCode (classify s.ib s.ackb s.nackb s.busyb), ?_, completes_classr (exec_clsfy_of_written h)⟩
  cases s.ib with
  | nil => rfl
  | cons x xs => exact classCode_classify_cons ..

end Sys2Proof.Machine
end

section
/-! PROOFS. The statements of 45_timecode.md: the fields of the four candidates (R203 to R207), the chain (R210, R214,
R217, R219) and one candidate alone (R216, R218). -/

namespace Sys2Proof.Machine

/-! ### The fields of the candidates -/

/-- The number three bytes spell. -/
theorem toNat_append_append (a b c : Byte) :
    BitVec.toNat (w := 24) (a ++ b ++ c) = a.toNat * 65536 + b.toNat * 256 + c.toNat := by
  have h : BitVec.toNat (w := 16 + 8) ((a ++ b : OpWord) ++ c) = BitVec.toNat (w := 16) (a ++ b) <<< 8 ||| c.toNat :=
    BitVec.toNat_append ..
  refine h.trans ?_
  rw [← Nat.shiftLeft_add_eq_or_of_lt c.isLt, toNat_append, Nat.shiftLeft_eq]
  omega

/-- The packed layout in byte terms (R202, R203). -/
theorem unpack24_append (a b c : Byte) : unpack24 (a ++ b ++ c) =
    ⟨a.toNat / 4 % 32, a.toNat % 4 * 16 + b.toNat / 16, b.toNat % 16 * 4 + c.toNat / 64, c.toNat % 64⟩ := by
  simp only [unpack24, BitVec.extractLsb'_toNat, Nat.shiftRight_eq_div_pow, toNat_append_append, TimeValue.mk.injEq]
  have ha := a.isLt
  have hb := b.isLt
  have hc := c.isLt
  omega

theorem candPacked_of_short : ∀ {b : List Byte}, b.length < 3 → candPacked b = none
  | [], _ | [_], _ | [_, _], _ => rfl

theorem candReversed_of_short : ∀ {b : List Byte}, b.length < 3 → candReversed b = none
  | [], _ | [_], _ | [_, _], _ => rfl

theorem candBcd_of_short (strict : Bool) : ∀ {b : List Byte}, b.length < 4 → candBcd strict b = none
  | [], _ | [_], _ | [_, _], _ | [_, _, _], _ => rfl

theorem candBinary_of_short : ∀ {b : List Byte}, b.length < 4 → candBinary b = none
  | [], _ | [_], _ | [_, _], _ | [_, _, _], _ => rfl

/-- Settles O46: both candidates unpack three bytes, the reversed one from the other end. -/
theorem packedCandidateFields : Obligations.PackedCandidateFields := fun _ =>
  ⟨fun b0 b1 b2 _ => ⟨congrArg some (unpack24_append b0 b1 b2), congrArg some (unpack24_append b2 b1 b0)⟩,
    fun _ h => ⟨candPacked_of_short h, candReversed_of_short h⟩⟩

theorem hiNibble_eq (b : Byte) : hiNibble b = b.toNat / 16 := by
  simp only [hiNibble, BitVec.extractLsb'_toNat, Nat.shiftRight_eq_div_pow]
  omega

theorem loNibble_eq (b : Byte) : loNibble b = b.toNat % 16 := by
  simp [loNibble, BitVec.extractLsb'_toNat]

theorem bcdByte_eq (b : Byte) : bcdByte b = b.toNat / 16 * 10 + b.toNat % 16 := by
  rw [bcdByte, hiNibble_eq, loNibble_eq]

/-- A byte fails the digit check by one of its two nibbles (R206). -/
theorem isBcd_eq_false_iff (b : Byte) : isBcd b = false ↔ 9 < b.toNat / 16 ∨ 9 < b.toNat % 16 := by
  simp [isBcd, hiNibble_eq, loNibble_eq, Classical.or_iff_not_imp_left]

/-- Candidate 2 on four bytes, with the digit check (R204, R206). -/
theorem candBcd_four (strict : Bool) (b0 b1 b2 b3 : Byte) (rest : List Byte) :
    candBcd strict (b0 :: b1 :: b2 :: b3 :: rest) =
      if strict = true ∧ ∃ b ∈ [b0, b1, b2, b3], isBcd b = false then none
      else some ⟨bcdByte b0, bcdByte b1, bcdByte b2, bcdByte b3⟩ := by
  refine if_congr ?_ rfl rfl
  simp [or_assoc]

/-- Settles O47: a digit is a nibble, and one above 9 fails the digit check. -/
theorem fourByteCandidateFields : Obligations.FourByteCandidateFields := by
  refine fun strict => ⟨fun b0 b1 b2 b3 rest => ⟨?_, rfl⟩, fun b h => ⟨candBcd_of_short strict h, candBinary_of_short h⟩⟩
  simp only [candidateValue, candBcd_four, isBcd_eq_false_iff, bcdByte_eq]

/-! ### What TCDEC and TCCAND execute -/

/-- A candidate passes with a value it yields whose four numbers are in range (R200, R208). -/
theorem passValue_eq_some_iff {strict : Bool} {k : Candidate} {b : List Byte} {v : TimeValue} :
    passValue strict k b = some v ↔
      candidateValue strict k b = some v ∧ v.h ≤ 23 ∧ v.m ≤ 59 ∧ v.s ≤ 59 ∧ v.f ≤ 29 := by
  rw [passValue_eq_some, tcValid_iff]

/-- One candidate that passes is found (R216). -/
theorem tcOne_of_some {strict : Bool} {k : Candidate} {b : List Byte} {v : TimeValue}
    (h : passValue strict k b = some v) : tcOne strict k b = .found k v := by
  simp [tcOne, firstPass, h]

/-- One candidate that does not pass decodes nothing (R216). -/
theorem tcOne_of_none {strict : Bool} {k : Candidate} {b : List Byte}
    (h : passValue strict k b = none) : tcOne strict k b = .noDecode := by
  simp [tcOne, firstPass, h]

/-- The results that the screen and the four candidates in their order allow, one case for each (R210). -/
inductive ChainResult (strict : Bool) (b : List Byte) : TcResult → Prop
  | screened (hs : sentinel b = true) : ChainResult strict b .screened
  | packed {v : TimeValue} (hs : ¬sentinel b = true) (h1 : passValue strict .packed b = some v) :
    ChainResult strict b (.found .packed v)
  | bcd {v : TimeValue} (hs : ¬sentinel b = true) (h1 : passValue strict .packed b = none)
    (h2 : passValue strict .bcd b = some v) : ChainResult strict b (.found .bcd v)
  | binary {v : TimeValue} (hs : ¬sentinel b = true) (h1 : passValue strict .packed b = none)
    (h2 : passValue strict .bcd b = none) (h3 : passValue strict .binary b = some v) :
    ChainResult strict b (.found .binary v)
  | reversed {v : TimeValue} (hs : ¬sentinel b = true) (h1 : passValue strict .packed b = none)
    (h2 : passValue strict .bcd b = none) (h3 : passValue strict .binary b = none)
    (h4 : passValue strict .reversed b = some v) : ChainResult strict b (.found .reversed v)
  | noDecode (hs : ¬sentinel b = true) (h : ∀ k, passValue strict k b = none) : ChainResult strict b .noDecode

/-- The inversion of the chain: each candidate in turn passes, or is passed over. -/
theorem chainResult_tcDecode (strict : Bool) (b : List Byte) : ChainResult strict b (tcDecode strict b) := by
  rw [tcDecode]
  split
  · next hs => exact .screened hs
  next hs =>
  rw [chainOrder]
  obtain ⟨v, h1, h⟩ | ⟨h1, h⟩ := firstPass_cons strict b .packed [.bcd, .binary, .reversed] <;> rw [h]
  · exact .packed hs h1
  obtain ⟨v, h2, h⟩ | ⟨h2, h⟩ := firstPass_cons strict b .bcd [.binary, .reversed] <;> rw [h]
  · exact .bcd hs h1 h2
  obtain ⟨v, h3, h⟩ | ⟨h3, h⟩ := firstPass_cons strict b .binary [.reversed] <;> rw [h]
  · exact .binary hs h1 h2 h3
  obtain ⟨v, h4, h⟩ | ⟨h4, h⟩ := firstPass_cons strict b .reversed [] <;> rw [h]
  · exact .reversed hs h1 h2 h3 h4
  · exact .noDecode hs fun k => by cases k <;> assumption

/-- TCCAND commits the result of its one candidate and answers its status (R216). -/
theorem exec_tccand_of_number {n : Byte} {k : Candidate} (hn : candidateOfNumber n = some k) (s : State) :
    exec (.tccand n) s = respond (tcStatus (tcOne s.params.bcdStrict k s.ib))
      (s.tcCommit (tcOne s.params.bcdStrict k s.ib)) := by
  simp [exec, execTccand, hn]

/-- TCCAND refuses a number that names no candidate (R216). -/
theorem exec_tccand_of_none {n : Byte} (hn : candidateOfNumber n = none) (s : State) :
    exec (.tccand n) s = raise .illegalOperand s := by
  simp [exec, execTccand, hn]

/-- The time that is written is always in range: a time found passed, and the other time is zero (R211). -/
theorem tcValid_tcTime {r : TcResult} (hr : PassedResult r) : tcValid (tcTime r) = true := by
  cases r with
  | screened | noDecode => rfl
  | found k v => exact hr

/-- An operation that commits a result answers its status, leaves its time in the registers, and changes nothing else
(R211). -/
theorem completes_tcCommit {i : Instr} {s : State} {r : TcResult} (hr : PassedResult r)
    (h : exec i s = respond (tcStatus r) (s.tcCommit r)) :
    Completes i s (tcStatus r) fun t => t.tcstat = tcStatus r ∧ t.tch.toNat = (tcTime r).h ∧
      t.tcm.toNat = (tcTime r).m ∧ t.tcs.toNat = (tcTime r).s ∧ t.tcf.toNat = (tcTime r).f ∧
      RegsKeptBut [.reg .tcstat, .reg .tch, .reg .tcm, .reg .tcs, .reg .tcf] s t ∧ BuffersKept s t := by
  obtain ⟨hh, hm, hs, hf⟩ := (tcValid_iff _).mp (tcValid_tcTime hr)
  refine completes_of_respond h (by simp [OutsideKept])
    ⟨by simp, ?_, ?_, ?_, ?_, regsKept_tcCommit s r _, by simp [BuffersKept]⟩
  all_goals
    simp only [setRsp_tch, setRsp_tcm, setRsp_tcs, setRsp_tcf, tcCommit_tch, tcCommit_tcm, tcCommit_tcs, tcCommit_tcf,
      BitVec.toNat_ofNat]
    omega

/-! ### TCDEC -/

/-- Settles O48, by the six results of the chain. -/
theorem tcdecFollowsTheChain : Obligations.TcdecFollowsTheChain := by
  refine ⟨decode_encode .tcdec, fun s => ⟨_, _, completes_tcCommit (tcDecode_passed ..) (exec_tcdec s), ?_⟩⟩
  have hchain := chainResult_tcDecode s.params.bcdStrict s.ib
  simp only [← sentinel_iff, ← passValue_eq_some_iff, ← Option.isSome_iff_exists, Option.not_isSome_iff_eq_none]
  generalize tcDecode s.params.bcdStrict s.ib = r at hchain
  cases hchain with
  | screened hs => exact .inl ⟨hs, rfl, rfl⟩
  | packed hs h1 => exact .inr (.inl ⟨hs, h1, rfl⟩)
  | bcd hs h1 h2 => exact .inr (.inr (.inl ⟨hs, h1, h2, rfl⟩))
  | binary hs h1 h2 h3 => exact .inr (.inr (.inr (.inl ⟨hs, h1, h2, h3, rfl⟩)))
  | reversed hs h1 h2 h3 h4 => exact .inr (.inr (.inr (.inr (.inl ⟨hs, h1, h2, h3, h4, rfl⟩))))
  | noDecode hs h => exact .inr (.inr (.inr (.inr (.inr ⟨hs, by simp [h], rfl, rfl⟩))))

/-- The chain answers "screened" on the sentinels alone (R210). -/
theorem tcDecode_eq_screened_iff (strict : Bool) (b : List Byte) :
    tcDecode strict b = .screened ↔ sentinel b = true := by
  have hchain := chainResult_tcDecode strict b
  generalize tcDecode strict b = r at hchain
  cases hchain <;> simp [*]

/-- Of the statuses of R211, 0x88 is that of a screened response alone. -/
theorem tcStatus_eq_screened_iff (r : TcResult) : tcStatus r = 0x88 ↔ r = .screened := by
  cases r with
  | screened | noDecode => decide
  | found k v => cases k <;> simp

/-- The screen as three patterns of the whole response (R217). -/
theorem sentinel_iff_pattern (b : List Byte) : sentinel b = true ↔
    (∃ n, b = List.replicate n 0x00) ∨ (∃ n, b = List.replicate n 0xFF) ∨ ∃ rest, b = 0x91 :: rest := by
  simp [sentinel_iff, List.eq_replicate_iff, List.head?_eq_some_iff]

/-- Settles O50: TCDEC answers 0x0088 exactly when the chain is screened, and zeros are written then. -/
theorem sentinelAnswersExactly : Obligations.SentinelAnswersExactly := by
  intro s
  have hrsp (r : TcResult) : some (rspDone (tcStatus r)) = some 0x0088 ↔ r = .screened := by
    rw [← tcStatus_eq_screened_iff, ← rspDone_inj, Option.some_inj]
    rfl
  refine ⟨_, exec_tcdec s, ?_, fun h => ?_⟩
  · rw [setRsp_rsp, hrsp, tcDecode_eq_screened_iff, sentinel_iff_pattern]
  · rw [setRsp_rsp, hrsp] at h
    rw [h]
    exact ⟨rfl, rfl, rfl, rfl⟩

/-- Read as BCD without the digit check, a byte is at most what it is as a number. -/
theorem bcdByte_le (b : Byte) : bcdByte b ≤ b.toNat := by
  rw [bcdByte_eq]
  omega

/-- Without the digit check candidate 2 passes wherever candidate 3 does (R219 (c)). -/
theorem bcd_passes_of_binary {b : List Byte} {v : TimeValue} (h : passValue false .binary b = some v) :
    ∃ w, passValue false .bcd b = some w := by
  obtain ⟨hv, hh, hm, hs, hf⟩ := passValue_eq_some_iff.mp h
  match b, hv with
  | b0 :: b1 :: b2 :: b3 :: _, rfl =>
    exact ⟨⟨bcdByte b0, bcdByte b1, bcdByte b2, bcdByte b3⟩, passValue_eq_some_iff.mpr ⟨rfl,
      (bcdByte_le b0).trans hh, (bcdByte_le b1).trans hm, (bcdByte_le b2).trans hs, (bcdByte_le b3).trans hf⟩⟩

/-- The FMT field tells the four candidates apart (R211). -/
theorem tcstatValue_found_inj (j k : Candidate) :
    tcstatValue true (fmtOf j) false = tcstatValue true (fmtOf k) false ↔ j = k := by
  cases j <;> cases k <;> decide

/-- A status with FOUND set names the candidate that was found (R211). -/
theorem tcStatus_eq_found_iff (r : TcResult) (k : Candidate) :
    tcStatus r = tcstatValue true (fmtOf k) false ↔ ∃ v, r = .found k v := by
  cases r with
  | screened | noDecode => exact iff_of_false (by cases k <;> decide) (by simp)
  | found j v =>
    rw [tcStatus, tcstatValue_found_inj]
    simp

/-- Settles O52: where candidate 3 would win, candidate 2, tried first, has passed. -/
theorem binaryNeverWinsUnlessStrict : Obligations.BinaryNeverWinsUnlessStrict := by
  intro s t hlax h
  obtain rfl := (respond_next ..).mp ((exec_tcdec s).symm.trans h)
  have hstat : tcStatus (tcDecode s.params.bcdStrict s.ib) ≠ tcstatValue true (fmtOf .binary) false := by
    rw [hlax, ne_eq, tcStatus_eq_found_iff]
    rintro ⟨v, hv⟩
    have hchain := chainResult_tcDecode false s.ib
    rw [hv] at hchain
    cases hchain with
    | binary _ _ h2 h3 =>
      obtain ⟨w, hw⟩ := bcd_passes_of_binary h3
      simp [hw] at h2
  exact ⟨fun hr => hstat ((rspDone_inj ..).mp (Option.some.inj hr)), hstat⟩

/-! ### TCCAND -/

/-- The candidates' numbers (R216). -/
theorem candidateOfNumber_of_mem {n : Byte} {k : Candidate}
    (h : (n, k) ∈ [(0x01#8, Candidate.packed), (0x02#8, .bcd), (0x03#8, .binary), (0x04#8, .reversed)]) :
    candidateOfNumber n = some k := by
  simp only [List.mem_cons, Prod.mk.injEq, List.not_mem_nil, or_false] at h
  obtain ⟨rfl, rfl⟩ | ⟨rfl, rfl⟩ | ⟨rfl, rfl⟩ | ⟨rfl, rfl⟩ := h <;> rfl

theorem candidateOfNumber_eq_none {n : Byte} (h : n.toNat < 1 ∨ 4 < n.toNat) : candidateOfNumber n = none := by
  revert n
  decide

/-- The status of a time found, from the candidate's number (R211, R216). -/
theorem tcStatus_found_of_number {n : Byte} {k : Candidate} (hn : candidateOfNumber n = some k) (v : TimeValue) :
    tcStatus (.found k v) = 0x81 + 2 * (n - 1) := by
  unfold candidateOfNumber at hn
  split at hn <;> cases hn <;> simp

/-- Settles O49: a number names one candidate, which passes or not, or none. -/
theorem tccandRunsOneCandidate : Obligations.TccandRunsOneCandidate := by
  refine fun n s => ⟨decode_append 0x61 n,
    fun h => refuses_of_raise (exec_tccand_of_none (candidateOfNumber_eq_none h) s), fun k hk => ?_⟩
  have hn := candidateOfNumber_of_mem hk
  refine ⟨_, _, completes_tcCommit (firstPass_passed ..) (exec_tccand_of_number hn s), ?_⟩
  simp only [← passValue_eq_some_iff, ← Option.isSome_iff_exists, Option.not_isSome_iff_eq_none]
  cases h : passValue s.params.bcdStrict k s.ib with
  | some v =>
    rw [← tcOne, tcOne_of_some h]
    exact .inl ⟨rfl, tcStatus_found_of_number hn v⟩
  | none =>
    rw [← tcOne, tcOne_of_none h]
    exact .inr ⟨rfl, rfl, rfl⟩

/-- 12:34:56:07, the time of R218. -/
def specTime : TimeValue := ⟨12, 34, 56, 7⟩

/-- TCCAND on bytes from which its candidate takes 12:34:56:07. -/
theorem tccand_finds_specTime {n : Byte} {k : Candidate} {b : Buffer} (hn : candidateOfNumber n = some k)
    (hb : ∀ strict, tcOne strict k b = .found k specTime) {s : State} (hib : s.ib = b) :
    ∃ t, exec (.tccand n) s = .next t ∧ t.rsp = some (rspDone (tcStatus (.found k specTime))) ∧
      t.tch = 0x0C ∧ t.tcm = 0x22 ∧ t.tcs = 0x38 ∧ t.tcf = 0x07 := by
  refine ⟨_, exec_tccand_of_number hn s, ?_⟩
  rw [hib, hb]
  exact ⟨rfl, rfl, rfl, rfl, rfl⟩

/-- TCCAND on bytes that its candidate rejects. -/
theorem tccand_rejects {n : Byte} {k : Candidate} {b : Buffer} (hn : candidateOfNumber n = some k)
    (hb : ∀ strict, tcOne strict k b = .noDecode) {s : State} (hib : s.ib = b) :
    ∃ t, exec (.tccand n) s = .next t ∧ t.rsp = some 0x0080 := by
  refine ⟨_, exec_tccand_of_number hn s, ?_⟩
  rw [hib, hb]
  rfl

/-- Settles O51, row by row: the candidate is run on the row's bytes. -/
theorem candidatesRecoverTheSpecTime : Obligations.CandidatesRecoverTheSpecTime := by
  intro row hrow s
  simp only [List.mem_cons, List.not_mem_nil, or_false] at hrow
  obtain rfl | rfl | rfl | rfl := hrow
  · exact ⟨tccand_finds_specTime (k := .packed) rfl (by decide), tccand_rejects (k := .packed) rfl (by decide)⟩
  · exact ⟨tccand_finds_specTime (k := .bcd) rfl (by decide), tccand_rejects (k := .bcd) rfl (by decide)⟩
  · exact ⟨tccand_finds_specTime (k := .binary) rfl (by decide), tccand_rejects (k := .binary) rfl (by decide)⟩
  · exact ⟨tccand_finds_specTime (k := .reversed) rfl (by decide), tccand_rejects (k := .reversed) rfl (by decide)⟩

/-- The candidate that the chain finds passes with the time found. -/
theorem passValue_of_tcDecode {strict : Bool} {k : Candidate} {b : List Byte} {v : TimeValue}
    (h : tcDecode strict b = .found k v) : passValue strict k b = some v := by
  have hchain := chainResult_tcDecode strict b
  rw [h] at hchain
  cases hchain <;> assumption

/-- Where TCDEC finds a time by a candidate, TCCAND with its number has the same outcome (law 15). -/
theorem tccand_of_tcdec {n : Byte} {k : Candidate} (hn : candidateOfNumber n = some k) {s t : State}
    (h : exec .tcdec s = .next t) (hstat : t.tcstat = tcstatValue true (fmtOf k) false) :
    exec (.tccand n) s = .next t := by
  obtain rfl := (respond_next ..).mp ((exec_tcdec s).symm.trans h)
  rw [setRsp_tcstat, tcCommit_tcstat, tcStatus_eq_found_iff] at hstat
  obtain ⟨v, hv⟩ := hstat
  rw [← h, exec_tccand_of_number hn, exec_tcdec, hv, tcOne_of_some (passValue_of_tcDecode hv)]

/-- Settles O53, for each of the four numbers. -/
theorem chainWinnerAgreesWithTccand : Obligations.ChainWinnerAgreesWithTccand := by
  intro s t k hk1 hk4 h hstat
  interval_cases k
  · exact tccand_of_tcdec (k := .packed) rfl h hstat
  · exact tccand_of_tcdec (k := .bcd) rfl h hstat
  · exact tccand_of_tcdec (k := .binary) rfl h hstat
  · exact tccand_of_tcdec (k := .reversed) rfl h hstat

end Sys2Proof.Machine
end

section
/-! PROOFS. The statements of 60_exceptions.md: the six faults (R231), fault entry (R232), the faults of each operation
(R234), and the idle block (R246). -/

namespace Sys2Proof.Machine

/-! ### The six faults -/

/-- Settles O12, fault by fault. -/
theorem faultCodesBitsResponses : Obligations.FaultCodesBitsResponses := by
  unfold Obligations.FaultCodesBitsResponses
  decide

/-! ### Idling -/

/-- With nothing presented the step changes the response alone. -/
theorem step_of_no_inputs {s : State} (h : s.inputs = []) : step s = .next (s.setRsp none) := by
  simp [step, h, idle]

/-- Settles O5: an idle step changes the response alone, which is no register and no buffer. -/
theorem idleBlockKeepsItsState : Obligations.IdleBlockKeepsItsState :=
  fun s h => ⟨s.setRsp none, step_of_no_inputs h, rfl, regsKept_setRsp s none, ⟨rfl, rfl⟩, rfl, rfl⟩

/-! ### Fault entry -/

/-- The state that `raise` answers is fault entry (R232). -/
theorem faultEntered_of_raise {c : FaultCode} {s t : State} (h : raise c s = .next t) : FaultEntered c s t := by
  obtain ⟨u, hu, hf⟩ := raise_entered c s
  rw [hu] at h
  cases h
  exact hf

/-- A word with a faulted response has raised: only a fault answers one. -/
theorem faultEntered_of_faulted {w : OpWord} {s t : State} {r : RspWord} (h : acceptWord w s = .next t)
    (hr : t.rsp = some r) (hf : faulted r = true) : ∃ c, FaultEntered c s t := by
  rcases acceptWord_cases w s with ⟨c, hc⟩ | ⟨i, d, u, -, hx, -⟩
  · exact ⟨c, faultEntered_of_raise (hc.symm.trans h)⟩
  · obtain rfl := (respond_next ..).mp (hx.symm.trans h)
    obtain rfl : rspDone d = r := Option.some.inj hr
    simp at hf

/-- A word whose response is not faulted has completed: it leaves `FLT`, or it is SRST, which clears it (R39, R111). -/
theorem flt_of_not_faulted {w : OpWord} {s t : State} {r : RspWord} (h : acceptWord w s = .next t)
    (hr : t.rsp = some r) (hf : faulted r = false) : t.flt = s.flt ∨ (decode w = .ok .srst ∧ t.flt = 0x00) := by
  rcases acceptWord_cases w s with ⟨c, hc⟩ | ⟨i, d, u, hd, hx, hw⟩
  · obtain rfl := (raise_next ..).mp (hc.symm.trans h)
    obtain rfl : rspFault c = r := Option.some.inj hr
    simp at hf
  · obtain rfl := (respond_next ..).mp (hx.symm.trans h)
    by_cases hi : i = .srst
    · subst hi
      exact .inr ⟨hd, congrArg State.flt hw⟩
    · obtain ⟨-, -, hflt⟩ := written_masks hw hi
      exact .inl hflt

/-- Settles O13: a faulted response is fault entry's, any other a completed operation's; and every word is answered,
in the state after a fault as in any other. -/
theorem faultChangesOnlyItsFltBit : Obligations.FaultChangesOnlyItsFltBit := by
  intro w s t r h hr
  refine ⟨fun hf => ⟨faultEntered_of_faulted h hr hf, fun v => ?_⟩, flt_of_not_faulted h hr⟩
  obtain ⟨u, q, hu, hq, -⟩ := acceptWord_answers v t
  exact ⟨u, q, hu, hq⟩

/-! ### The faults of each operation -/

/-- The table of R234: every operation with every fault it can raise. -/
def faultsOf : Instr → List FaultCode
  | .setalg _ | .rdreg _ | .tccand _ => [.illegalOperand]
  | .ibpush _ => [.overflow]
  | .rdob _ | .rdib _ => [.indexError]
  | .cenc | .clsfy => [.notConfigured]
  | .cvfy => [.notConfigured, .lengthError]
  | .nenc | .nvfy => [.lengthError]
  | .nop | .srst | .setack _ | .setnack _ | .setbusy _ | .setua2 _ | .setbt _ | .setcmd _ | .setctrl _ | .setdata _
  | .ibclr | .ob2ib | .tcdec => []

/-- An outcome whose response, where it is a fault's, is that of a fault of the list. -/
def FaultsWithin (cs : List FaultCode) (o : Outcome) : Prop :=
  ∀ t c, o = .next t → t.rsp = some (rspFault c) → c ∈ cs

theorem faultsWithin_respond {cs : List FaultCode} {d : Byte} {s : State} : FaultsWithin cs (respond d s) := by
  intro t c h hr
  obtain rfl := (respond_next ..).mp h
  exact absurd (Option.some.inj hr) (rspDone_ne_rspFault d c)

theorem faultsWithin_raise {cs : List FaultCode} {k : FaultCode} {s : State} (hk : k ∈ cs) :
    FaultsWithin cs (raise k s) := by
  intro t c h hr
  obtain rfl := (raise_next ..).mp h
  obtain rfl : k = c := (rspFault_inj ..).mp (Option.some.inj hr)
  exact hk

/-- A test raises only what its two branches raise. -/
theorem faultsWithin_ite {cs : List FaultCode} {p : Prop} [Decidable p] {o q : Outcome} (ho : FaultsWithin cs o)
    (hq : FaultsWithin cs q) : FaultsWithin cs (if p then o else q) := by
  split
  · exact ho
  · exact hq

theorem faultsWithin_readBack {space : Space} {k : FaultCode} {n : Byte} {s : State} :
    FaultsWithin [k] (readBack space k n s) := by
  rcases readBack_cases space k n s with ⟨b, -, h⟩ | ⟨-, h⟩ <;> rw [h]
  · exact faultsWithin_respond
  · exact faultsWithin_raise List.mem_cons_self

/-- An operation raises only the faults that R234 lists for it. -/
theorem exec_faultsWithin (i : Instr) (s : State) : FaultsWithin (faultsOf i) (exec i s) := by
  cases i
  case setalg | ibpush | nenc | nvfy => exact faultsWithin_ite (faultsWithin_raise (.head _)) faultsWithin_respond
  case cenc | clsfy => exact faultsWithin_ite faultsWithin_respond (faultsWithin_raise (.head _))
  case cvfy =>
    exact faultsWithin_ite (faultsWithin_raise (.head _))
      (faultsWithin_ite (faultsWithin_raise (.tail _ (.head _))) faultsWithin_respond)
  case rdreg | rdob | rdib => exact faultsWithin_readBack
  case tccand n =>
    cases h : candidateOfNumber n with
    | none =>
      rw [exec_tccand_of_none h]
      exact faultsWithin_raise (.head _)
    | some k =>
      rw [exec_tccand_of_number h]
      exact faultsWithin_respond
  all_goals exact faultsWithin_respond

/-- With its 64 bytes full the input buffer of the block after reset takes no more (R131). -/
theorem refuses_ibpush_full : Refuses (.ibpush 0x00) (State.reset.setIb (List.replicate 64 0x00)) .overflow :=
  refuses_of_raise (exec_ibpush_of_eq 0x00 List.length_replicate)

/-- With an algorithm selected CVFY still refuses the empty input buffer that a reset leaves (R157). -/
theorem refuses_cvfy_empty : Refuses .cvfy (State.reset.setMarked .csalg .profv algvBit 0x00) .lengthError :=
  refuses_of_raise (exec_cvfy_of_length rfl (by decide))

/-- Settles O15: no operation raises a fault off its list; and right after reset, with nothing written and both buffers
empty, each raises those of its list, but for IBPUSH and the length fault of CVFY. -/
theorem faultsOfEachOperation : Obligations.FaultsOfEachOperation := by
  refine ⟨exec_faultsWithin, ?_⟩
  obtain ⟨-, -, hsetalg⟩ := setalgSelectsTheAlgorithm 0x02 .reset
  obtain ⟨-, -, hrdreg⟩ := rdregAnswersTheRegister .reset
  obtain ⟨-, -, hrdob⟩ := rdobAnswersTheOutputByte 0x00 .reset
  obtain ⟨-, -, hrdib⟩ := rdibAnswersTheInputByte 0x00 .reset
  simp only [List.forall_mem_cons]
  refine ⟨⟨.reset, hsetalg (by decide)⟩, ⟨_, refuses_ibpush_full⟩, ⟨.reset, hrdreg 0x05 ?rdreg⟩,
    ⟨.reset, hrdob (by decide)⟩, ⟨.reset, hrdib (by decide)⟩, ⟨.reset, ?cenc⟩, ⟨.reset, ?cvfy⟩, ⟨_, refuses_cvfy_empty⟩,
    ⟨.reset, ?nenc⟩, ⟨.reset, ?nvfy⟩, ⟨.reset, ?clsfy⟩, ⟨.reset, ?tccand⟩, nofun⟩
  case rdreg =>
    intro r h
    have hnone := regOfNumber_regNumber r
    rw [h] at hnone
    cases hnone
  case cenc => exact refuses_of_raise (exec_cenc_of_unwritten (.inl rfl))
  case cvfy => exact refuses_of_raise (exec_cvfy_of_unwritten rfl)
  case nenc => exact refuses_of_raise (exec_nenc_of_ne (by decide) (by decide))
  case nvfy => exact refuses_of_raise (exec_nvfy_of_ne (by decide) (by decide))
  case clsfy => exact refuses_of_raise (exec_clsfy_of_unwritten (by decide))
  case tccand => exact refuses_of_raise (exec_tccand_of_none rfl _)

end Sys2Proof.Machine
end

section
/-! PROOFS. The statements of 70_reset_and_hazards.md: reset at the pins (R260), SRST against the reset input (R261),
the operation that a reset abandons (R262), and the parameters (R264). -/

namespace Sys2Proof.Machine

/-! ### The parameters -/

/-- An accepted word changes nothing that is no state of the block, whether its operation faults or completes. -/
theorem acceptWord_outside {w : OpWord} {s t : State} (ha : acceptWord w s = .next t) : OutsideKept s t := by
  rcases acceptWord_cases w s with ⟨c, hc⟩ | ⟨i, d, u, -, hx, hw⟩
  · obtain ⟨-, -, -, -, houtside⟩ := faultEntered_of_raise (hc.symm.trans ha)
    exact houtside
  · obtain rfl := (respond_next ..).mp (hx.symm.trans ha)
    obtain ⟨hparams, hinputs⟩ := written_outside hw
    exact ⟨hparams, hinputs⟩

/-- Settles O18, by the three things a step can be: idle, a cycle of `rst`, an accepted word. -/
theorem parametersNeverChange : Obligations.ParametersNeverChange := by
  intro s t h
  rcases step_cases h with ⟨-, rfl⟩ | ⟨rest, -, rfl⟩ | ⟨w, rest, -, ha⟩
  · exact setRsp_params s none
  · exact toReset_params (s.setInputs rest)
  · obtain ⟨hparams, -⟩ := acceptWord_outside ha
    exact hparams

/-! ### SRST and the reset input -/

/-- A step that takes SRST answers 0x0000 in the state that a reset makes (R111). -/
theorem step_srst {s : State} {q : List HostInput} (h : s.inputs = .op (encode .srst) :: q) :
    step s = .next ((s.setInputs q).toReset.setRsp (some 0x0000)) :=
  (step_of_inputs h).trans (acceptWord_of_ok (decode_encode .srst) _)

/-- A step that takes a cycle of `rst` leaves the state that a reset makes, and answers nothing (R260). -/
theorem step_rst {s : State} {q : List HostInput} (h : s.inputs = .rst :: q) :
    step s = .next (s.setInputs q).toReset := step_of_inputs h

/-- Settles O21: both steps reset the block, and SRST's response alone stands between their states. -/
theorem srstEqualsResetInput : Obligations.SrstEqualsResetInput := fun s q =>
  ⟨(s.setInputs q).toReset.setRsp (some 0x0000), step_srst rfl, step_rst rfl, rfl,
    atReset_setRsp (atReset_toReset _) _⟩

/-! ### Reset at the pins -/

/-- At an edge with `rst` = 1 the device is reset, whatever its port was doing. -/
theorem clockEdge_of_rst {p : Pins} (hp : p.rst = true) (d : Device) : clockEdge p d = deviceReset d := if_pos hp

/-- No response is valid while `rst` is 1. -/
theorem rspOut_of_rst {p : Pins} (hp : p.rst = true) (d : Device) : rspOut p d = none := by simp [rspOut, hp]

/-- Nothing is ready while `rst` is 1. -/
theorem opReady_of_rst {p : Pins} (hp : p.rst = true) (d : Device) : opReady p d = false := by simp [opReady, hp]

/-- No response is valid while no operation is in progress. -/
theorem rspOut_of_ready {d : Device} (hd : d.phase = .ready) (q : Pins) : rspOut q d = none := by simp [rspOut, hd]

/-- A port with no operation in progress accepts the word offered, unless `rst` is 1. -/
theorem acceptsAt_of_ready {d : Device} (hd : d.phase = .ready) {q : Pins} (hrst : q.rst = false)
    (hv : q.opValid = true) : acceptsAt q d = true := by
  simp [acceptsAt, opReady, hd, hrst, hv]

/-- Settles O54: the edge resets the device, and a device just reset is ready. -/
theorem resetInputResetsTheDevice : Obligations.ResetInputResetsTheDevice := by
  intro p d hp
  have hready := opReady_of_rst hp d
  rw [clockEdge_of_rst hp]
  exact ⟨atReset_toReset d.block, rfl, hready, rspOut_of_rst hp d, by simp [acceptsAt, hready],
    fun q => acceptsAt_of_ready rfl⟩

/-! ### The abandoned operation -/

/-- The device has no operation in progress, and its block has the values of R40. -/
def QuietAtReset (d : Device) : Prop := d.phase = .ready ∧ AtReset d.block

theorem quietAtReset_deviceReset (d : Device) : QuietAtReset (deviceReset d) := ⟨rfl, atReset_toReset d.block⟩

/-- An edge that offers no word, with `rst` or without, leaves a device quiet at reset. -/
theorem clockEdge_keeps_quietAtReset {q : Pins} {d : Device} (hq : q.opValid = false) (hd : QuietAtReset d) :
    QuietAtReset (clockEdge q d) := by
  obtain ⟨hready, hreset⟩ := hd
  cases hrst : q.rst with
  | true =>
    rw [clockEdge_of_rst hrst]
    exact quietAtReset_deviceReset d
  | false =>
    have hsame : clockEdge q d = d := by simp [clockEdge, hrst, hready, hq]
    rw [hsame]
    exact ⟨hready, hreset⟩

theorem clockEdges_keeps_quietAtReset {qs : List Pins} {d : Device} (hqs : ∀ x ∈ qs, x.opValid = false)
    (hd : QuietAtReset d) : QuietAtReset (clockEdges d qs) := by
  induction qs generalizing d with
  | nil => exact hd
  | cons q qs ih =>
    obtain ⟨hq, hqs⟩ := List.forall_mem_cons.mp hqs
    exact ih hqs (clockEdge_keeps_quietAtReset hq hd)

/-- Settles O55: the reset leaves the device quiet, and it stays so until a word is offered. -/
theorem resetAbandonsTheOperation : Obligations.ResetAbandonsTheOperation := by
  intro p d w n hp _
  rw [clockEdge_of_rst hp]
  refine ⟨rspOut_of_rst hp d, atReset_toReset d.block, fun qs q hqs => ?_⟩
  obtain ⟨hready, hreset⟩ := clockEdges_keeps_quietAtReset hqs (quietAtReset_deviceReset d)
  exact ⟨rspOut_of_ready hready q, hreset⟩

end Sys2Proof.Machine
end
